-- ==== Sys2Proof/Word.lean ====
section
/-! DEFINITION. The bit vectors the ports carry: channels, pixels, the mode number, the coin, and the 53-bit
test-vector word (10_state.md R25, 00_scope.md R6 and R8, 30_encoding.md R45). -/

namespace Sys2Proof

/-- One colour component, unsigned, 0..255 (00_scope.md R6, R8). -/
abbrev Channel := BitVec 8

/-- One pixel on a 24-bit bus: R in bits 23:16, G in 15:8, B in 7:0 (20_memory.md R32). -/
abbrev Pixel := BitVec 24

/-- The value on the `mode` port (10_state.md R25). -/
abbrev ModeNumber := BitVec 4

/-- The value on the `coin` port (00_scope.md R7). -/
abbrev Coin := BitVec 1

/-- The test-vector word (30_encoding.md R45). -/
abbrev EvalWord := BitVec 53

/-- The three channels of a pixel (00_scope.md R10). -/
inductive ChannelName where
  | r
  | g
  | b
deriving DecidableEq, Repr

end Sys2Proof
end

