-- ==== Sys2Proof/Syntax.lean ====
section
/-! DEFINITION. The operations of the block: the 16 modes, the evaluation tuple (30_encoding.md R40, R41), and the
program notation of R46 and R47. -/

namespace Sys2Proof

/-- The modes of 30_encoding.md R41, the two undefined mode values among them (R42). -/
inductive Mode where
  | add | subtract | addWrap | subtractWrap
  | multiply | dissolve | average | set
  | screen | lighten | darken | difference
  | overlay | colorDodge
  | rsv14 | rsv15
deriving DecidableEq, Repr

/-- One evaluation of the block, one constructor per row of spec/opcode_table.json: the mode with the operands
presented with it (30_encoding.md R40). Every form carries `coin`, since the port is there at every evaluation; only
`dissolve` reads it (R44). -/
inductive Instr where
  | add          (a b : Pixel) (coin : Coin)
  | subtract     (a b : Pixel) (coin : Coin)
  | addWrap      (a b : Pixel) (coin : Coin)
  | subtractWrap (a b : Pixel) (coin : Coin)
  | multiply     (a b : Pixel) (coin : Coin)
  | dissolve     (a b : Pixel) (coin : Coin)
  | average      (a b : Pixel) (coin : Coin)
  | set          (a b : Pixel) (coin : Coin)
  | screen       (a b : Pixel) (coin : Coin)
  | lighten      (a b : Pixel) (coin : Coin)
  | darken       (a b : Pixel) (coin : Coin)
  | difference   (a b : Pixel) (coin : Coin)
  | overlay      (a b : Pixel) (coin : Coin)
  | colorDodge   (a b : Pixel) (coin : Coin)
  | rsv14        (a b : Pixel) (coin : Coin)
  | rsv15        (a b : Pixel) (coin : Coin)
deriving DecidableEq, Repr

/-- The tuple on the ports (30_encoding.md R40). -/
structure Fields where
  mode : ModeNumber
  a    : Pixel
  b    : Pixel
  coin : Coin
deriving DecidableEq, Repr

/-- An operand of a program line: a pixel, or `@`, the `y` of the previous evaluation (30_encoding.md R47). -/
inductive Operand where
  | pixel (p : Pixel)
  | prev
deriving DecidableEq, Repr

/-- Where an evaluation's coin comes from: given with the line (30_encoding.md R46), or left to `COIN_SOURCE`
(00_scope.md R7, 92_eei_decisions.md D4). -/
inductive CoinArg where
  | given (c : Coin)
  | drawn
deriving DecidableEq, Repr

/-- One evaluation of a program as the harness holds it, `@` not yet resolved (30_encoding.md R47). -/
structure Evaluation where
  mode : Mode
  a    : Operand
  b    : Operand
  coin : CoinArg
deriving DecidableEq, Repr

/-- An operand as a source line writes it: `0xRRGGBB`, a decimal triple `(r,g,b)`, or `@` (30_encoding.md R46,
R47). The numbers are as written; WellFormed says which are in range. -/
inductive SourceOperand where
  | hex (v : Nat)
  | triple (r g b : Nat)
  | prev
deriving DecidableEq, Repr

/-- A source line `BLEND.<MNEMONIC> a, b[, coin]` (30_encoding.md R46). -/
structure SourceLine where
  mode : Mode
  a    : SourceOperand
  b    : SourceOperand
  coin : Option Nat
deriving DecidableEq, Repr

end Sys2Proof
end

