-- ==== Sys2Proof/WellFormed.lean ====
section
/-! DEFINITION. Which source lines and programs are well formed (30_encoding.md R46, R47). An `Instr` has no check:
its fields carry their widths (R40), and every mode value is an operation (R42). -/

namespace Sys2Proof

/-- A written pixel fits its 24 bits, and each number of a triple its channel (00_scope.md R8). -/
def SourceOperand.wellFormed : SourceOperand → Bool
  | .hex v => decide (v < 2 ^ 24)
  | .triple r g b => decide (r ≤ 255) && decide (g ≤ 255) && decide (b ≤ 255)
  | .prev => true

/-- `coin` is omitted, 0 or 1 (30_encoding.md R46). -/
def coinWellFormed : Option Nat → Bool
  | none => true
  | some c => decide (c ≤ 1)

/-- A line whose operands and coin are in range. -/
def SourceLine.wellFormed (l : SourceLine) : Bool :=
  l.a.wellFormed && l.b.wellFormed && coinWellFormed l.coin

/-- An evaluation that uses `@` in either operand position. -/
def Evaluation.usesPrev (e : Evaluation) : Bool :=
  e.a == .prev || e.b == .prev

/-- A source line that uses `@` in either operand position. -/
def SourceLine.usesPrev (l : SourceLine) : Bool :=
  l.a == .prev || l.b == .prev

/-- A program: every line is well formed, and the first does not use `@`, which stands for the `y` of the previous
evaluation in the list (30_encoding.md R47). -/
def programWellFormed : List SourceLine → Bool
  | [] => true
  | l :: rest => !l.usesPrev && (l :: rest).all SourceLine.wellFormed

end Sys2Proof
end

