-- ==== Sys2Proof/Decode.lean ====
section
/-! DEFINITION. The mode table (30_encoding.md R41, kept as one table as 92_eei_decisions.md D1 asks), the decoder
of an evaluation (R40, R42), of its 53-bit word and its 14 hex digits (R45), the opcode table's numbering, and the
encoders back. -/

namespace Sys2Proof

/-- The modes in the order of their numbers, counted from 0 (30_encoding.md R41). -/
def modeTable : List Mode :=
  [.add, .subtract, .addWrap, .subtractWrap,
   .multiply, .dissolve, .average, .set,
   .screen, .lighten, .darken, .difference,
   .overlay, .colorDodge, .rsv14, .rsv15]

/-- The mode a number on the port selects: its row of the table. The table has a row for each of the 16 numbers. -/
def modeOfNumber (n : ModeNumber) : Mode :=
  modeTable.getD n.toNat .rsv15

/-- The number of a mode: its position in the table. -/
def modeNumber (m : Mode) : ModeNumber :=
  BitVec.ofNat 4 (modeTable.idxOf m)

/-- The evaluation of a mode with its operands. -/
def instrOf : Mode → Pixel → Pixel → Coin → Instr
  | .add,          a, b, c => .add a b c
  | .subtract,     a, b, c => .subtract a b c
  | .addWrap,      a, b, c => .addWrap a b c
  | .subtractWrap, a, b, c => .subtractWrap a b c
  | .multiply,     a, b, c => .multiply a b c
  | .dissolve,     a, b, c => .dissolve a b c
  | .average,      a, b, c => .average a b c
  | .set,          a, b, c => .set a b c
  | .screen,       a, b, c => .screen a b c
  | .lighten,      a, b, c => .lighten a b c
  | .darken,       a, b, c => .darken a b c
  | .difference,   a, b, c => .difference a b c
  | .overlay,      a, b, c => .overlay a b c
  | .colorDodge,   a, b, c => .colorDodge a b c
  | .rsv14,        a, b, c => .rsv14 a b c
  | .rsv15,        a, b, c => .rsv15 a b c

/-- The operation on the ports. The decode is total (30_encoding.md R42). -/
def decodeFields (f : Fields) : Instr :=
  instrOf (modeOfNumber f.mode) f.a f.b f.coin

/-- The 53-bit word of a tuple: `{coin, mode, a, b}` (30_encoding.md R45). -/
def wordOfFields (f : Fields) : EvalWord :=
  f.coin ++ f.mode ++ f.a ++ f.b

/-- The tuple of a 53-bit word: `coin` = word[52], `mode` = word[51:48], `a` = word[47:24], `b` = word[23:0]
(30_encoding.md R45). -/
def fieldsOfWord (w : EvalWord) : Fields where
  mode := w.extractLsb' 48 4
  a    := w.extractLsb' 24 24
  b    := w.extractLsb' 0 24
  coin := w.extractLsb' 52 1

/-- The evaluation a 53-bit word writes (30_encoding.md R45). -/
def decode (w : EvalWord) : Instr :=
  decodeFields (fieldsOfWord w)

/-- Why 14 hex digits, as seven bytes, write no evaluation. -/
inductive DecodeError where
  /-- not 14 hex digits (seven bytes) -/
  | notFourteenDigits
  /-- the first digit, the coin, is neither 0 nor 1 -/
  | coinDigit
deriving DecidableEq, Repr

/-- The evaluation that 14 hex digits `C M AAAAAA BBBBBB` write, given as seven bytes read left to right; `C` is 0
or 1 (30_encoding.md R45). -/
def decodeBytes : List (BitVec 8) → Except DecodeError Instr
  | [cm, a2, a1, a0, b2, b1, b0] =>
    if cm.toNat < 32 then
      .ok (decodeFields
        { mode := cm.extractLsb' 0 4
          a := a2 ++ a1 ++ a0
          b := b2 ++ b1 ++ b0
          coin := cm.extractLsb' 4 1 })
    else .error .coinDigit
  | _ => .error .notFourteenDigits

/-- The tuple of a number in the opcode table's numbering. The table numbers `mode` as bits 3:0 and gives the other
operands no bits; the model puts them above in the order of the row's format, `a` in 27:4, `b` in 51:28, `coin` in
52. DESIGN CHOICE (log entry 1). -/
def fieldsOfTable (w : Nat) : Fields where
  mode := BitVec.ofNat 4 w
  a    := BitVec.ofNat 24 (w / 2 ^ 4)
  b    := BitVec.ofNat 24 (w / 2 ^ 28)
  coin := BitVec.ofNat 1 (w / 2 ^ 52)

/-- The evaluation the decoder reads from the first `nbits` bits of `w`, numbered as spec/opcode_table.json numbers
them, every bit above them 0; none where a bit past the tuple's 53 is set. -/
def decodeTableWord (nbits w : Nat) : Option Instr :=
  let v := w % 2 ^ nbits
  if v < 2 ^ 53 then some (decode (wordOfFields (fieldsOfTable v))) else none

/-- The tuple an evaluation presents on the ports (30_encoding.md R40, R41). -/
def encodeFields : Instr → Fields
  | .add a b c          => ⟨modeNumber .add, a, b, c⟩
  | .subtract a b c     => ⟨modeNumber .subtract, a, b, c⟩
  | .addWrap a b c      => ⟨modeNumber .addWrap, a, b, c⟩
  | .subtractWrap a b c => ⟨modeNumber .subtractWrap, a, b, c⟩
  | .multiply a b c     => ⟨modeNumber .multiply, a, b, c⟩
  | .dissolve a b c     => ⟨modeNumber .dissolve, a, b, c⟩
  | .average a b c      => ⟨modeNumber .average, a, b, c⟩
  | .set a b c          => ⟨modeNumber .set, a, b, c⟩
  | .screen a b c       => ⟨modeNumber .screen, a, b, c⟩
  | .lighten a b c      => ⟨modeNumber .lighten, a, b, c⟩
  | .darken a b c       => ⟨modeNumber .darken, a, b, c⟩
  | .difference a b c   => ⟨modeNumber .difference, a, b, c⟩
  | .overlay a b c      => ⟨modeNumber .overlay, a, b, c⟩
  | .colorDodge a b c   => ⟨modeNumber .colorDodge, a, b, c⟩
  | .rsv14 a b c        => ⟨modeNumber .rsv14, a, b, c⟩
  | .rsv15 a b c        => ⟨modeNumber .rsv15, a, b, c⟩

/-- The 53-bit word of an evaluation (30_encoding.md R45). -/
def encode (i : Instr) : EvalWord :=
  wordOfFields (encodeFields i)

/-- The 14 hex digits of an evaluation, as seven bytes (30_encoding.md R45). -/
def encodeBytes (i : Instr) : List (BitVec 8) :=
  let w : BitVec 56 := (encode i).zeroExtend 56
  [w.extractLsb' 48 8, w.extractLsb' 40 8, w.extractLsb' 32 8, w.extractLsb' 24 8,
   w.extractLsb' 16 8, w.extractLsb' 8 8, w.extractLsb' 0 8]

end Sys2Proof
end

