-- ==== Sys2Proof/Machine/Operands.lean ====
section
/-! DEFINITION. Operands: a pixel's channels, packing, and the per-channel application of a formula (00_scope.md R9,
R10; 30_encoding.md R43). -/

namespace Sys2Proof.Machine

/-- `Chan(p, c)` (00_scope.md R10). -/
def chan (p : Pixel) : ChannelName → Channel
  | .r => p.extractLsb' 16 8
  | .g => p.extractLsb' 8 8
  | .b => p.extractLsb' 0 8

/-- `Pix(r, g, b)` (00_scope.md R10). -/
def pix (r g b : Channel) : Pixel :=
  r ++ g ++ b

/-- A channel as an unsigned integer; no channel is ever read as signed (30_encoding.md R43). -/
def exactValue (x : Channel) : Int :=
  (x.toNat : Int)

/-- The result of an exact formula put into an 8-bit channel (00_scope.md R9). -/
def toChannel (v : Int) : Channel :=
  BitVec.ofInt 8 v

/-- `x >> k`, `floor(x / 2^k)` (00_scope.md R9). -/
def shiftDown (x : Int) (k : Nat) : Int :=
  x / 2 ^ k

/-- One channel of a per-channel mode: the formula on exact integers, then 8 bits (00_scope.md R9). -/
def onChannel (f : Int → Int → Int) (x y : Channel) : Channel :=
  toChannel (f (exactValue x) (exactValue y))

/-- `PerChannel(f, a, b)` (00_scope.md R10). -/
def perChannel (f : Int → Int → Int) (a b : Pixel) : Pixel :=
  pix (onChannel f (chan a .r) (chan b .r))
      (onChannel f (chan a .g) (chan b .g))
      (onChannel f (chan a .b) (chan b .b))

end Sys2Proof.Machine
end

