-- ==== Sys2Proof/Machine/Formulas.lean ====
section
/-! DEFINITION. The formula of each mode on exact integers, the pixel it gives, and `Blend` (40_additive.md R60 to
R64, 41_multiply_select.md R70 to R73, 42_screen_minmax.md R80 to R83, 43_overlay_dodge.md R90 and R91, 30_encoding.md
R42). -/

namespace Sys2Proof.Machine

/-- Add: `min(x + y, 255)` (40_additive.md R60). -/
def addFormula (x y : Int) : Int := min (x + y) 255

/-- Subtract: `max(x - y, 0)` (40_additive.md R61). -/
def subtractFormula (x y : Int) : Int := max (x - y) 0

/-- AddWrap: `(x + y) mod 256` (40_additive.md R62). -/
def addWrapFormula (x y : Int) : Int := (x + y) % 256

/-- SubtractWrap: `(x - y) mod 256`, the residue in 0..255 (40_additive.md R63, 00_scope.md R9). -/
def subtractWrapFormula (x y : Int) : Int := (x - y) % 256

/-- Multiply: `(x * y) >> 8` (41_multiply_select.md R70). -/
def multiplyFormula (x y : Int) : Int := shiftDown (x * y) 8

/-- Average: `(x + y) >> 1` (41_multiply_select.md R72). -/
def averageFormula (x y : Int) : Int := shiftDown (x + y) 1

/-- Screen: `255 - (((255 - x) * (255 - y)) >> 8)` (42_screen_minmax.md R80). -/
def screenFormula (x y : Int) : Int := 255 - shiftDown ((255 - x) * (255 - y)) 8

/-- Lighten: `max(x, y)` (42_screen_minmax.md R81). -/
def lightenFormula (x y : Int) : Int := max x y

/-- Darken: `min(x, y)` (42_screen_minmax.md R82). -/
def darkenFormula (x y : Int) : Int := min x y

/-- Difference: `abs(x - y)` (42_screen_minmax.md R83). -/
def differenceFormula (x y : Int) : Int := ((x - y).natAbs : Int)

/-- Overlay, gated on the base `x` (43_overlay_dodge.md R90; 90_conflicts.md C1). -/
def overlayFormula (x y : Int) : Int :=
  if x < 128 then shiftDown (2 * x * y) 8
  else 255 - shiftDown (2 * (255 - x) * (255 - y)) 8

/-- ColorDodge, guarded on the blend `y` before the division is formed (43_overlay_dodge.md R91; 60_exceptions.md
R103; 90_conflicts.md C1). -/
def colorDodgeFormula (x y : Int) : Int :=
  if y = 255 then 255 else min 255 ((x * 256) / (255 - y))

/-- 40_additive.md R60. -/
def blendAdd (a b : Pixel) : Pixel := perChannel addFormula a b
/-- 40_additive.md R61. -/
def blendSubtract (a b : Pixel) : Pixel := perChannel subtractFormula a b
/-- 40_additive.md R62. -/
def blendAddWrap (a b : Pixel) : Pixel := perChannel addWrapFormula a b
/-- 40_additive.md R63. -/
def blendSubtractWrap (a b : Pixel) : Pixel := perChannel subtractWrapFormula a b
/-- 41_multiply_select.md R70. -/
def blendMultiply (a b : Pixel) : Pixel := perChannel multiplyFormula a b
/-- `(coin = 1) ? b : a`, all 24 bits from one side (41_multiply_select.md R71). -/
def blendDissolve (a b : Pixel) (coin : Coin) : Pixel := if coin = 1 then b else a
/-- 41_multiply_select.md R72. -/
def blendAverage (a b : Pixel) : Pixel := perChannel averageFormula a b
/-- The new layer replaces (41_multiply_select.md R73). -/
def blendSet (b : Pixel) : Pixel := b
/-- 42_screen_minmax.md R80. -/
def blendScreen (a b : Pixel) : Pixel := perChannel screenFormula a b
/-- 42_screen_minmax.md R81. -/
def blendLighten (a b : Pixel) : Pixel := perChannel lightenFormula a b
/-- 42_screen_minmax.md R82. -/
def blendDarken (a b : Pixel) : Pixel := perChannel darkenFormula a b
/-- 42_screen_minmax.md R83. -/
def blendDifference (a b : Pixel) : Pixel := perChannel differenceFormula a b
/-- 43_overlay_dodge.md R90. -/
def blendOverlay (a b : Pixel) : Pixel := perChannel overlayFormula a b
/-- 43_overlay_dodge.md R91. -/
def blendColorDodge (a b : Pixel) : Pixel := perChannel colorDodgeFormula a b

/-- `Blend(a, b, mode, coin)` on a mode number of any width: a number with no row of the mode table, 14 or more, is
Add (30_encoding.md R42, 92_eei_decisions.md D2). -/
def blend (mode : Nat) (a b : Pixel) (coin : Coin) : Pixel :=
  match mode with
  | 0  => blendAdd a b
  | 1  => blendSubtract a b
  | 2  => blendAddWrap a b
  | 3  => blendSubtractWrap a b
  | 4  => blendMultiply a b
  | 5  => blendDissolve a b coin
  | 6  => blendAverage a b
  | 7  => blendSet b
  | 8  => blendScreen a b
  | 9  => blendLighten a b
  | 10 => blendDarken a b
  | 11 => blendDifference a b
  | 12 => blendOverlay a b
  | 13 => blendColorDodge a b
  | _  => blendAdd a b

end Sys2Proof.Machine
end

