-- ==== Sys2Proof/Config.lean ====
section
/-! DEFINITION. What an implementation fixes (`BLEND_LATENCY`) and the values the spec leaves open, as constants
with no body (00_scope.md R6, 93_implementation_defined.md I2, I3, I4, I6). -/

namespace Sys2Proof.Config

/-- `BLEND_LATENCY` of the machine `State.reset` describes: 0, the spec's default (00_scope.md R6,
93_implementation_defined.md I6). Every operation and every statement of the model is over any latency: it is the
number of stages a state holds (log entry 8). -/
def blendLatency : Nat := 0

/-- `y` while `out_valid` = 0, by step: any value (93_implementation_defined.md I3). -/
opaque freeOutput : Nat → Pixel

/-- `stage[k].d` after a reset edge, by step and `k`: any value (93_implementation_defined.md I4). -/
opaque freeStage : Nat → Nat → Pixel

/-- `stage[k].v` at power-up, before any reset edge, by `k`: any value (93_implementation_defined.md I4). -/
opaque powerUpValid : Nat → Bool

/-- `stage[k].d` at power-up, before any reset edge, by `k`: any value (93_implementation_defined.md I4). -/
opaque powerUpData : Nat → Pixel

/-- What the combinational logic gives, by step, where the inputs are no evaluation and a bit of them is undefined:
any value (92_eei_decisions.md D14 refuses evaluations only). -/
opaque freeBlend : Nat → Pixel

/-- `COIN_SOURCE`, by step: whatever drives `coin` where a caller leaves the flip to it. Nothing is assumed of its
distribution (92_eei_decisions.md D4, 93_implementation_defined.md I2 and I9). -/
opaque coinSource : Nat → Coin

end Sys2Proof.Config
end

