-- ==== Sys2Proof/Machine/State.lean ====
section
/-! DEFINITION. The machine's state as plain data: the input lines, the combinational output, the pipeline stages of a
block with `BLEND_LATENCY` ≥ 1, and what the caller will drive (10_state.md R20 to R28; 30_encoding.md R47). -/

namespace Sys2Proof.Machine

/-- Why the machine stops with a fault: never. The block raises no exception, trap or error for any input
(60_exceptions.md R100), so this type has no constructor. -/
inductive Fault where
deriving DecidableEq, Repr

/-- Why a step is refused. No instruction's meaning refuses. -/
inductive Refusal where
  /-- An instruction with no meaning yet, by its mnemonic. Raised by `exec`'s refused arms, of which there are none.
  Safe: nothing is claimed of the instruction. -/
  | notModelled (mnemonic : String)
  /-- An evaluation is sampled while a bit of `a`, `b`, `mode` or `coin` is not 0 or 1. Raised by `step`. Safe: the
  spec refuses the evaluation (92_eei_decisions.md D14, 93_implementation_defined.md I5). -/
  | undefinedInput
  /-- With `BLEND_LATENCY` ≥ 1, `clk`, `rst` or `in_valid` is not 0 or 1 where the step needs it. Raised by `step`.
  Safe: every input bit must be 0 or 1 (92_eei_decisions.md D14). -/
  | undefinedControl
  /-- A program presents an evaluation that uses `@` where no evaluation has given a result. Raised by `step`. Safe:
  `@` stands for the previous evaluation's `y` and there is none (30_encoding.md R47). -/
  | noPreviousResult
deriving DecidableEq, Repr

/-- The lines of one input port: the value driven, and which bits are not 0 or 1 (X, Z, metastable:
93_implementation_defined.md I5). -/
structure Lines (w : Nat) where
  val   : BitVec w
  undef : BitVec w
deriving DecidableEq, Repr

/-- Lines with every bit driven to 0 or 1. -/
def driven {w : Nat} (v : BitVec w) : Lines w := { val := v, undef := 0#w }

/-- The input ports (10_state.md R25, R26). `clk`, `rst` and `in_valid` exist only with `BLEND_LATENCY` ≥ 1 and are
not read without it. A step is at most one clock cycle: `clk` is 1 when the clock has a rising edge at the step, 0 when
it has none (log entry 4). -/
structure Ports where
  a       : Lines 24
  b       : Lines 24
  mode    : Lines 4
  coin    : Lines 1
  clk     : Lines 1
  rst     : Lines 1
  inValid : Lines 1
deriving DecidableEq, Repr

/-- One pipeline stage, `(v, d)` (10_state.md R26). -/
structure Stage where
  v : Bool
  d : Pixel
deriving DecidableEq, Repr

/-- What the caller does at one step: drive given lines, or present one evaluation of a program, with `@` resolved
by the harness (30_encoding.md R47). -/
inductive Cue where
  | lines (p : Ports)
  | present (e : Evaluation)
deriving DecidableEq, Repr

/-- The machine. `stages` is `stage[1..L]` in order, so its length is `BLEND_LATENCY` (10_state.md R26; none with
L = 0, R20). `blendOut` is the output of the combinational logic (R25). `y` and `out_valid` are read from these, not
stored again. The last four fields are the model's own: `draws` counts steps and indexes the free values, `feed` is what
the caller will drive, and `inFlight` and `prev` are what the harness of 30_encoding.md R47 carries: how many results
it still waits for, and the value `@` stands for. -/
structure State where
  ports    : Ports
  blendOut : Pixel
  stages   : List Stage
  draws    : Nat
  feed     : List Cue
  inFlight : Nat
  prev     : Option Pixel
deriving DecidableEq, Repr

/-- The input lines at reset: all zero, all driven, the clock running, nothing presented. An input has no reset value;
DESIGN CHOICE (log entry 3). -/
def Ports.atReset : Ports :=
  { a := driven 0, b := driven 0, mode := driven 0, coin := driven 0,
    clk := driven 1, rst := driven 0, inValid := driven 0 }

/-- The machine with `BLEND_LATENCY` = `latency` right after reset: every valid bit 0, the data of the stages any
value (10_state.md R28, 70_reset_and_hazards.md R110, R111). `blendOut` is `Blend` of the zero lines (R28). -/
def State.resetOf (latency : Nat) : State :=
  { ports := Ports.atReset
    blendOut := 0
    stages := (List.range latency).map fun k => { v := false, d := Config.freeStage 0 k }
    draws := 1
    feed := []
    inFlight := 0
    prev := none }

/-- The machine with `BLEND_LATENCY` = `latency` at power-up, before any reset edge: the stages hold any value, the
valid bits too (70_reset_and_hazards.md R111, 93_implementation_defined.md I4).

DESIGN CHOICE, unsafe (log entry 15): the spec does not say what the harness of 30_encoding.md R47 holds here. The model
gives it what it holds after reset, `inFlight` = 0 and `prev` = `none`. `observe` then takes a valid bit that powered up
as 1 for a result, and a reset edge while `inFlight` = 0 keeps the `prev` so read. R111: a user must apply reset before
it trusts `out_valid`. -/
def State.powerUp (latency : Nat) : State :=
  { State.resetOf latency with
    stages := (List.range latency).map fun k =>
      { v := Config.powerUpValid k, d := Config.powerUpData k } }

/-- The machine right after reset, at the spec's default `BLEND_LATENCY` = 0 (70_reset_and_hazards.md R110). -/
def State.reset : State := State.resetOf Config.blendLatency

end Sys2Proof.Machine
end

