-- ==== Sys2Proof/Machine/Ops.lean ====
section
/-! DEFINITION. The operations the meanings and the step share: reading the input lines, the outputs, what an
evaluation, an edge without one, a reset edge and a stopped clock do to the block, and what the harness does
(10_state.md R25 to R28; 70_reset_and_hazards.md R111, R114; 30_encoding.md R47). There is no exception to take and
none to return from (60_exceptions.md R100, R105, R106). -/

namespace Sys2Proof.Machine

/-- The value on a port, if every bit of it is 0 or 1 (92_eei_decisions.md D14). -/
def Lines.read {w : Nat} (l : Lines w) : Option (BitVec w) :=
  if l.undef = 0#w then some l.val else none

/-- The evaluation present on the lines, if every bit of its operands is 0 or 1: `mode` and `coin` are sampled with
`a` and `b` (20_memory.md R38, 70_reset_and_hazards.md R115). -/
def sample (p : Ports) : Option Instr :=
  match p.mode.read, p.a.read, p.b.read, p.coin.read with
  | some mode, some a, some b, some coin => some (decodeFields { mode, a, b, coin })
  | _, _, _, _ => none

/-- `Blend` of an evaluation's tuple (30_encoding.md R42). -/
def blendFields (f : Fields) : Pixel :=
  blend f.mode.toNat f.a f.b f.coin

/-- What the combinational logic gives for the present lines: `Blend` of them (10_state.md R25), and any value while
a bit is undefined. -/
def settle (s : State) : Pixel :=
  match sample s.ports with
  | some i => blendFields (encodeFields i)
  | none => Config.freeBlend s.draws

/-- `out_valid`, which is `stage[L].v`; it does not exist with `BLEND_LATENCY` = 0 (10_state.md R26, R28). -/
def State.outValid (s : State) : Option Bool :=
  s.stages.getLast?.map Stage.v

/-- `y`: with `BLEND_LATENCY` = 0 the combinational output (10_state.md R25); else `stage[L].d` while `out_valid` = 1
(R26), and any value while it is 0 (93_implementation_defined.md I3). -/
def State.y (s : State) : Pixel :=
  match s.stages.getLast? with
  | none => s.blendOut
  | some st => if st.v then st.d else Config.freeOutput s.draws

/-- The stages after a rising edge without reset: `new` enters `stage[1]`, the others take their old predecessor's
value (10_state.md R26). With no stage there is none after either. -/
def shiftIn (new : Stage) (stages : List Stage) : List Stage :=
  (new :: stages).dropLast

/-- The stages after a reset edge, from the `k`-th on: valid bits 0, data any value (70_reset_and_hazards.md R111). -/
def clearStages (draw : Nat) : Nat → List Stage → List Stage
  | _, [] => []
  | k, _ :: rest => { v := false, d := Config.freeStage draw k } :: clearStages draw (k + 1) rest

/-- What an evaluation whose result is `result` does: the combinational output is the result (10_state.md R25) and, with
`BLEND_LATENCY` ≥ 1, it enters the pipeline with its valid bit at the rising edge (R26). There is no other effect
(20_memory.md R35). -/
def evaluate (result : Pixel) (s : State) : State :=
  { s with
    blendOut := result
    stages := shiftIn { v := true, d := result } s.stages
    draws := s.draws + 1 }

/-- A rising edge with `rst` = 0 and `in_valid` = 0: `stage[1]` gets valid bit 0 (10_state.md R26). -/
def bubble (s : State) : State :=
  { s with
    blendOut := settle s
    stages := shiftIn { v := false, d := settle s } s.stages
    draws := s.draws + 1 }

/-- A rising edge with `rst` = 1 (10_state.md R26, 70_reset_and_hazards.md R111). Results that the harness still waits
for are lost, so `@` then stands for nothing. -/
def resetEdge (s : State) : State :=
  { s with
    blendOut := settle s
    stages := clearStages s.draws 0 s.stages
    draws := s.draws + 1
    inFlight := 0
    prev := if s.inFlight = 0 then s.prev else none }

/-- No rising edge: the stages keep their values; the combinational logic follows the lines (60_exceptions.md R108). -/
def holdClock (s : State) : State :=
  { s with blendOut := settle s, draws := s.draws + 1 }

/-- What the block does at a step. -/
inductive Event where
  /-- it evaluates an operation -/
  | evaluation (i : Instr)
  /-- a rising edge with `in_valid` = 0 -/
  | bubble
  /-- a rising edge with `rst` = 1 -/
  | reset
  /-- no rising edge -/
  | held
  /-- an input bit it needs is undefined -/
  | undefined (r : Refusal)
deriving DecidableEq, Repr

/-- The present operands as an evaluation, or the refusal 92_eei_decisions.md D14 gives. -/
def evaluationEvent (p : Ports) : Event :=
  match sample p with
  | some i => .evaluation i
  | none => .undefined .undefinedInput

/-- What happens at the step, from the lines. With no stage every step is an evaluation of the present inputs
(10_state.md R25); with stages, as the rising edge, `rst` and `in_valid` say, in that order (R26). -/
def eventOf (s : State) : Event :=
  if s.stages = [] then evaluationEvent s.ports
  else
    match s.ports.clk.read with
    | none => .undefined .undefinedControl
    | some clk =>
      if clk = 1 then
        match s.ports.rst.read with
        | none => .undefined .undefinedControl
        | some rst =>
          if rst = 1 then .reset
          else
            match s.ports.inValid.read with
            | none => .undefined .undefinedControl
            | some inValid => if inValid = 1 then evaluationEvent s.ports else .bubble
      else .held

/-- The lines of a caller that presents nothing: the data lines held, no reset, `in_valid` = 0, the clock running. -/
def Ports.idle (p : Ports) : Ports :=
  { p with clk := driven 1, rst := driven 0, inValid := driven 0 }

/-- The lines that present one evaluation: every bit defined, a rising edge, no reset, `in_valid` = 1. -/
def portsOf (f : Fields) : Ports :=
  { a := driven f.a, b := driven f.b, mode := driven f.mode, coin := driven f.coin,
    clk := driven 1, rst := driven 0, inValid := driven 1 }

/-- An operand's pixel; `@` is the previous evaluation's `y`, if there is one (30_encoding.md R47). -/
def operandPixel (prev : Option Pixel) : Operand → Option Pixel
  | .pixel p => some p
  | .prev => prev

/-- An evaluation's coin: as given, or drawn from `COIN_SOURCE` (92_eei_decisions.md D4). -/
def coinValue (draw : Nat) : CoinArg → Coin
  | .given c => c
  | .drawn => Config.coinSource draw

/-- The tuple an evaluation of a program presents, `@` and the coin resolved (30_encoding.md R47). -/
def resolve (s : State) (e : Evaluation) : Option Fields :=
  match operandPixel s.prev e.a, operandPixel s.prev e.b with
  | some a, some b =>
    some { mode := modeNumber e.mode, a, b, coin := coinValue s.draws e.coin }
  | _, _ => none

/-- The harness must not present an evaluation that uses `@` until the previous result has `out_valid` = 1
(30_encoding.md R47, 70_reset_and_hazards.md R114). With `BLEND_LATENCY` = 0 there is nothing to wait for (R113). -/
def mustWait (s : State) (e : Evaluation) : Bool :=
  e.usesPrev && s.inFlight != 0 && !s.stages.isEmpty

/-- The state once the caller has applied its next cue to the lines. With nothing left, or while the harness waits, it
presents nothing. -/
def drive (s : State) : Except Refusal State :=
  match s.feed with
  | [] => .ok { s with ports := s.ports.idle }
  | .lines p :: rest => .ok { s with ports := p, feed := rest }
  | .present e :: rest =>
    if mustWait s e then .ok { s with ports := s.ports.idle }
    else
      match resolve s e with
      | some f => .ok { s with ports := portsOf f, feed := rest }
      | none => .error .noPreviousResult

/-- The harness notes that an evaluation was issued. -/
def issue (s : State) : State :=
  { s with inFlight := s.inFlight + 1 }

/-- Whether a result is on `y`: always with `BLEND_LATENCY` = 0 (10_state.md R25), else while `out_valid` = 1 (R26). -/
def State.resultOnY (s : State) : Bool :=
  s.outValid.getD true

/-- The harness reads `y` when a result is on it, and `@` then stands for that (30_encoding.md R47). -/
def observe (s : State) : State :=
  if s.resultOnY then { s with inFlight := s.inFlight - 1, prev := some s.y } else s

/-- What a step adds around an evaluation: the harness notes it, and reads `y`. -/
def afterEvaluation : Host.Outcome State Fault Refusal → Host.Outcome State Fault Refusal
  | .next t => .next (observe (issue t))
  | .fault r => .fault r
  | .refused r => .refused r

/-- The caller will present the evaluations of a program one after another (30_encoding.md R47). -/
def State.withProgram (s : State) (program : List Evaluation) : State :=
  { s with feed := program.map Cue.present }

end Sys2Proof.Machine
end

