-- ==== Sys2Proof/Machine/Additive.lean ====
section
/-! DEFINITION. Add, Subtract, AddWrap, SubtractWrap and the fallback of the undefined mode values (40_additive.md). `coin` is an argument only where the mode reads
it (30_encoding.md R44). No mode writes flags or raises an exception. -/

namespace Sys2Proof.Machine

/-- 40_additive.md R60: saturating addition. -/
def execAdd (a b : Pixel) (s : State) : Host.Outcome State Fault Refusal :=
  .next (evaluate (blendAdd a b) s)

/-- 40_additive.md R61: saturating subtraction of `b` from `a`. -/
def execSubtract (a b : Pixel) (s : State) : Host.Outcome State Fault Refusal :=
  .next (evaluate (blendSubtract a b) s)

/-- 40_additive.md R62: modular addition. -/
def execAddWrap (a b : Pixel) (s : State) : Host.Outcome State Fault Refusal :=
  .next (evaluate (blendAddWrap a b) s)

/-- 40_additive.md R63: modular subtraction of `b` from `a`. -/
def execSubtractWrap (a b : Pixel) (s : State) : Host.Outcome State Fault Refusal :=
  .next (evaluate (blendSubtractWrap a b) s)

/-- 40_additive.md R64: the undefined mode 14 falls back to Add. -/
def execRsv14 (a b : Pixel) (s : State) : Host.Outcome State Fault Refusal :=
  .next (evaluate (blendAdd a b) s)

/-- 40_additive.md R64: the undefined mode 15 falls back to Add. -/
def execRsv15 (a b : Pixel) (s : State) : Host.Outcome State Fault Refusal :=
  .next (evaluate (blendAdd a b) s)

end Sys2Proof.Machine
end

