-- ==== Sys2Proof/Machine/MultiplySelect.lean ====
section
/-! DEFINITION. Multiply, Dissolve, Average and Set (41_multiply_select.md). `coin` is an argument only where the mode reads
it (30_encoding.md R44). No mode writes flags or raises an exception. -/

namespace Sys2Proof.Machine

/-- 41_multiply_select.md R70: product shifted down by 8. -/
def execMultiply (a b : Pixel) (s : State) : Host.Outcome State Fault Refusal :=
  .next (evaluate (blendMultiply a b) s)

/-- 41_multiply_select.md R71: the whole pixel from the side the coin selects. -/
def execDissolve (a b : Pixel) (coin : Coin) (s : State) : Host.Outcome State Fault Refusal :=
  .next (evaluate (blendDissolve a b coin) s)

/-- 41_multiply_select.md R72: mean rounded down. -/
def execAverage (a b : Pixel) (s : State) : Host.Outcome State Fault Refusal :=
  .next (evaluate (blendAverage a b) s)

/-- 41_multiply_select.md R73: replacement by `b`; `a` is not read. -/
def execSet (b : Pixel) (s : State) : Host.Outcome State Fault Refusal :=
  .next (evaluate (blendSet b) s)

end Sys2Proof.Machine
end

