-- ==== Sys2Proof/Machine/OverlayDodge.lean ====
section
/-! DEFINITION. Overlay and ColorDodge (43_overlay_dodge.md). `coin` is an argument only where the mode reads
it (30_encoding.md R44). No mode writes flags or raises an exception. -/

namespace Sys2Proof.Machine

/-- 43_overlay_dodge.md R90: a multiply or a screen, chosen per channel by the base `a`. -/
def execOverlay (a b : Pixel) (s : State) : Host.Outcome State Fault Refusal :=
  .next (evaluate (blendOverlay a b) s)

/-- 43_overlay_dodge.md R91: the base divided by the inverted blend, saturating, guarded at `b` = 255. -/
def execColorDodge (a b : Pixel) (s : State) : Host.Outcome State Fault Refusal :=
  .next (evaluate (blendColorDodge a b) s)

end Sys2Proof.Machine
end

