-- ==== Sys2Proof/Machine/ScreenMinMax.lean ====
section
/-! DEFINITION. Screen, Lighten, Darken and Difference (42_screen_minmax.md). `coin` is an argument only where the mode reads
it (30_encoding.md R44). No mode writes flags or raises an exception. -/

namespace Sys2Proof.Machine

/-- 42_screen_minmax.md R80: inverted multiply of the inverted inputs. -/
def execScreen (a b : Pixel) (s : State) : Host.Outcome State Fault Refusal :=
  .next (evaluate (blendScreen a b) s)

/-- 42_screen_minmax.md R81: channel-wise maximum. -/
def execLighten (a b : Pixel) (s : State) : Host.Outcome State Fault Refusal :=
  .next (evaluate (blendLighten a b) s)

/-- 42_screen_minmax.md R82: channel-wise minimum. -/
def execDarken (a b : Pixel) (s : State) : Host.Outcome State Fault Refusal :=
  .next (evaluate (blendDarken a b) s)

/-- 42_screen_minmax.md R83: absolute channel difference. -/
def execDifference (a b : Pixel) (s : State) : Host.Outcome State Fault Refusal :=
  .next (evaluate (blendDifference a b) s)

end Sys2Proof.Machine
end

