-- ==== Sys2Proof/Machine/Dispatch.lean ====
section
/-! DEFINITION. One arm per row of spec/opcode_table.json, in the table's order. -/

namespace Sys2Proof.Machine

/-- What an instruction does (30_encoding.md R42). -/
def exec (i : Instr) (s : State) : Host.Outcome State Fault Refusal :=
  match i with
  | .add a b _ => Sys2Proof.Machine.execAdd a b s
  | .subtract a b _ => Sys2Proof.Machine.execSubtract a b s
  | .addWrap a b _ => Sys2Proof.Machine.execAddWrap a b s
  | .subtractWrap a b _ => Sys2Proof.Machine.execSubtractWrap a b s
  | .multiply a b _ => Sys2Proof.Machine.execMultiply a b s
  | .dissolve a b coin => Sys2Proof.Machine.execDissolve a b coin s
  | .average a b _ => Sys2Proof.Machine.execAverage a b s
  | .set _ b _ => Sys2Proof.Machine.execSet b s
  | .screen a b _ => Sys2Proof.Machine.execScreen a b s
  | .lighten a b _ => Sys2Proof.Machine.execLighten a b s
  | .darken a b _ => Sys2Proof.Machine.execDarken a b s
  | .difference a b _ => Sys2Proof.Machine.execDifference a b s
  | .overlay a b _ => Sys2Proof.Machine.execOverlay a b s
  | .colorDodge a b _ => Sys2Proof.Machine.execColorDodge a b s
  | .rsv14 a b _ => Sys2Proof.Machine.execRsv14 a b s
  | .rsv15 a b _ => Sys2Proof.Machine.execRsv15 a b s

end Sys2Proof.Machine
end

