-- ==== Sys2Proof/Machine/Step.lean ====
section
/-! DEFINITION. One step: the caller applies its next cue to the lines, and the block answers them (10_state.md R25,
R26); and how a given instruction is placed as the next one. -/

namespace Sys2Proof.Machine

/-- One evaluation period with `BLEND_LATENCY` = 0, at most one clock cycle with `BLEND_LATENCY` ≥ 1. -/
def step (s : State) : Host.Outcome State Fault Refusal :=
  match drive s with
  | .error r => .refused r
  | .ok t =>
    match eventOf t with
    | .evaluation i => afterEvaluation (exec i t)
    | .bubble => .next (observe (bubble t))
    | .reset => .next (resetEdge t)
    | .held => .next (holdClock t)
    | .undefined r => .refused r

/-- `s` with the instruction of the opcode table's word `w` presented on the lines at the next step, before what the
caller would have driven (log entry 2). -/
def State.withFetchWord (s : State) (nbits w : Nat) : State :=
  { s with feed := .lines (portsOf (fieldsOfTable (w % 2 ^ nbits))) :: s.feed }

end Sys2Proof.Machine
end

