-- ==== Sys2Proof/Machine/Assembler.lean ====
section
/-! DEFINITION. The assembler's notation: reading and printing a source line, the evaluation it stands for, and the disassembler
(30_encoding.md R46, R47). Text is a list of characters. -/

namespace Sys2Proof.Machine

/-- The mnemonic after `BLEND.` (30_encoding.md R41). -/
def mnemonic : Mode → List Char
  | .add          => ['A', 'D', 'D']
  | .subtract     => ['S', 'U', 'B', 'T', 'R', 'A', 'C', 'T']
  | .addWrap      => ['A', 'D', 'D', 'W', 'R', 'A', 'P']
  | .subtractWrap => ['S', 'U', 'B', 'T', 'R', 'A', 'C', 'T', 'W', 'R', 'A', 'P']
  | .multiply     => ['M', 'U', 'L', 'T', 'I', 'P', 'L', 'Y']
  | .dissolve     => ['D', 'I', 'S', 'S', 'O', 'L', 'V', 'E']
  | .average      => ['A', 'V', 'E', 'R', 'A', 'G', 'E']
  | .set          => ['S', 'E', 'T']
  | .screen       => ['S', 'C', 'R', 'E', 'E', 'N']
  | .lighten      => ['L', 'I', 'G', 'H', 'T', 'E', 'N']
  | .darken       => ['D', 'A', 'R', 'K', 'E', 'N']
  | .difference   => ['D', 'I', 'F', 'F', 'E', 'R', 'E', 'N', 'C', 'E']
  | .overlay      => ['O', 'V', 'E', 'R', 'L', 'A', 'Y']
  | .colorDodge   => ['C', 'O', 'L', 'O', 'R', 'D', 'O', 'D', 'G', 'E']
  | .rsv14        => ['R', 'S', 'V', '1', '4']
  | .rsv15        => ['R', 'S', 'V', '1', '5']

/-- The mode a mnemonic names. -/
def modeOfMnemonic (name : List Char) : Option Mode :=
  modeTable.find? fun m => mnemonic m == name

/-- The hex digits in order, capitals as the spec prints them. -/
def hexDigits : List Char :=
  ['0', '1', '2', '3', '4', '5', '6', '7', '8', '9', 'A', 'B', 'C', 'D', 'E', 'F']

/-- A hex digit's value; small letters are read as capitals. -/
def hexValue (c : Char) : Option Nat :=
  let c := if 'a'.toNat ≤ c.toNat ∧ c.toNat ≤ 'f'.toNat then Char.ofNat (c.toNat - 32) else c
  if c ∈ hexDigits then some (hexDigits.idxOf c) else none

/-- The value of a run of hex digits, most significant first. -/
def hexNumber : List Char → Nat → Option Nat
  | [], n => some n
  | c :: rest, n =>
    match hexValue c with
    | some d => hexNumber rest (16 * n + d)
    | none => none

/-- The decimal digits at the front, as a number after `n`, and what follows them. -/
def takeDecimal : List Char → Nat → Nat × List Char
  | [], n => (n, [])
  | c :: rest, n => if c.isDigit then takeDecimal rest (10 * n + (c.toNat - '0'.toNat)) else (n, c :: rest)

/-- A decimal number of at least one digit, and what follows it. -/
def parseDecimal : List Char → Option (Nat × List Char)
  | c :: rest => if c.isDigit then some (takeDecimal (c :: rest) 0) else none
  | [] => none

/-- What follows the given character, blanks around it skipped. -/
def parseMark (mark : Char) (text : List Char) : Option (List Char) :=
  match text.dropWhile (· == ' ') with
  | c :: rest => if c == mark then some (rest.dropWhile (· == ' ')) else none
  | [] => none

/-- A decimal triple `(r,g,b)`, after its opening bracket. -/
def parseTriple (text : List Char) : Option (SourceOperand × List Char) := do
  let (r, text) ← parseDecimal (text.dropWhile (· == ' '))
  let text ← parseMark ',' text
  let (g, text) ← parseDecimal text
  let text ← parseMark ',' text
  let (b, text) ← parseDecimal text
  let text ← parseMark ')' text
  return (.triple r g b, text)

/-- An operand: `@`, a 24-bit hex pixel of six digits, or a decimal triple (30_encoding.md R46, R47). -/
def parseOperand : List Char → Option (SourceOperand × List Char)
  | '@' :: rest => some (.prev, rest)
  | '0' :: 'x' :: d5 :: d4 :: d3 :: d2 :: d1 :: d0 :: rest =>
    (hexNumber [d5, d4, d3, d2, d1, d0] 0).map fun v => (.hex v, rest)
  | '(' :: rest => parseTriple rest
  | _ => none

/-- The end of a line: nothing, or a comma and the coin. -/
def parseCoin (text : List Char) : Option (Option Nat) :=
  match text.dropWhile (· == ' ') with
  | [] => some none
  | text => do
    let text ← parseMark ',' text
    let (c, text) ← parseDecimal text
    if (text.dropWhile (· == ' ')).isEmpty then return some c else none

/-- A source line `BLEND.<MNEMONIC> a, b[, coin]` (30_encoding.md R46). -/
def parseLine : List Char → Option SourceLine
  | 'B' :: 'L' :: 'E' :: 'N' :: 'D' :: '.' :: text => do
    let mode ← modeOfMnemonic (text.takeWhile (· != ' '))
    let (a, text) ← parseOperand ((text.dropWhile (· != ' ')).dropWhile (· == ' '))
    let text ← parseMark ',' text
    let (b, text) ← parseOperand text
    let coin ← parseCoin text
    return { mode, a, b, coin }
  | _ => none

/-- The operand a well-formed source operand stands for. -/
def assembleOperand : SourceOperand → Operand
  | .hex v => .pixel (BitVec.ofNat 24 v)
  | .triple r g b => .pixel (BitVec.ofNat 8 r ++ BitVec.ofNat 8 g ++ BitVec.ofNat 8 b)
  | .prev => .prev

/-- The evaluation a well-formed source line stands for; an omitted coin is 0 (30_encoding.md R46). -/
def assemble (l : SourceLine) : Option Evaluation :=
  if l.wellFormed then
    some
      { mode := l.mode
        a := assembleOperand l.a
        b := assembleOperand l.b
        coin := .given (BitVec.ofNat 1 (l.coin.getD 0)) }
  else none

/-- The evaluations of a well-formed program (30_encoding.md R47). -/
def assembleProgram (lines : List SourceLine) : Option (List Evaluation) :=
  if programWellFormed lines then lines.mapM assemble else none

/-- The evaluation of a program that presents an instruction as it stands. -/
def evaluationOf (i : Instr) : Evaluation :=
  { mode := modeOfNumber (encodeFields i).mode
    a := .pixel (encodeFields i).a
    b := .pixel (encodeFields i).b
    coin := .given (encodeFields i).coin }

/-- The digit of one hex place of a number. -/
def hexDigit (v place : Nat) : Char :=
  hexDigits.getD (v / 16 ^ place % 16) '0'

/-- A pixel as `0xRRGGBB`. -/
def printPixel (p : Pixel) : List Char :=
  let v := p.toNat
  ['0', 'x', hexDigit v 5, hexDigit v 4, hexDigit v 3, hexDigit v 2, hexDigit v 1, hexDigit v 0]

/-- A number of at most three decimal digits, as a channel's is, without leading zeros. -/
def printDecimal (n : Nat) : List Char :=
  let digit := fun k => hexDigits.getD (k % 10) '0'
  (if n < 100 then [] else [digit (n / 100)]) ++ (if n < 10 then [] else [digit (n / 10)]) ++ [digit n]

/-- An operand as R46 and R47 write it: `0xRRGGBB`, `(r,g,b)` or `@`. -/
def printOperand : SourceOperand → List Char
  | .hex v => printPixel (BitVec.ofNat 24 v)
  | .triple r g b => ['('] ++ printDecimal r ++ [','] ++ printDecimal g ++ [','] ++ printDecimal b ++ [')']
  | .prev => ['@']

/-- A well-formed source line as 30_encoding.md R46 writes it, the coin only where the line has one. -/
def printLine (l : SourceLine) : List Char :=
  ['B', 'L', 'E', 'N', 'D', '.'] ++ mnemonic l.mode ++ [' '] ++ printOperand l.a ++ [',', ' '] ++ printOperand l.b ++
    match l.coin with
    | none => []
    | some c => [',', ' '] ++ printDecimal c

/-- The source line that stands for an instruction as it is: hex pixels, the coin written. -/
def sourceLineOf (i : Instr) : SourceLine :=
  { mode := modeOfNumber (encodeFields i).mode
    a := .hex (encodeFields i).a.toNat
    b := .hex (encodeFields i).b.toNat
    coin := some (encodeFields i).coin.toNat }

/-- The disassembler's line: the coin always written, mode values 14 and 15 as `BLEND.RSV14` and `BLEND.RSV15`, so
that decoding is one-to-one (30_encoding.md R46). -/
def disassemble (i : Instr) : List Char :=
  printLine (sourceLineOf i)

end Sys2Proof.Machine
end

