-- ==== Sys2Proof/Safety.lean ====
section
/-! DEFINITION. The terms claims use: what an instruction delivers, when the inputs are defined, runs of steps, and the
invariant a step keeps. -/

namespace Sys2Proof.Machine

/-- `exec i s` answers a next state in which the result `p` is on the combinational output, and on `y` with
`BLEND_LATENCY` = 0; it has entered `stage[1]` with its valid bit, every other stage holding its old predecessor; and
nothing else differs but the count of steps (10_state.md R25, R26; 20_memory.md R35). -/
def Delivers (i : Instr) (s : State) (p : Pixel) : Prop :=
  ∃ t, exec i s = .next t ∧
    t.blendOut = p ∧ (s.stages = [] → t.y = p) ∧
    t.stages = (({ v := true, d := p } : Stage) :: s.stages).dropLast ∧
    t.draws = s.draws + 1 ∧
    t.ports = s.ports ∧ t.feed = s.feed ∧ t.inFlight = s.inFlight ∧ t.prev = s.prev

/-- One channel of a mode: what `Blend` gives in a channel from what is in it. -/
def channelFn (mode : Nat) (x y : Channel) : Channel :=
  chan (blend mode (pix x x x) (pix y y y) 0) .r

/-- A formula gives a value in 0..255 for every two channel values (00_scope.md R9). -/
def StaysInRange (formula : Int → Int → Int) : Prop :=
  ∀ x y : Int, 0 ≤ x → x ≤ 255 → 0 ≤ y → y ≤ 255 → 0 ≤ formula x y ∧ formula x y ≤ 255

/-- The rule of a per-channel mode: its number decodes to the instruction, the instruction delivers `Blend` at that
number, and each channel of it is the formula of the same channel of `a` and `b`, whatever `coin` is. -/
def PerChannelRule (make : Pixel → Pixel → Coin → Instr) (mode : Nat) (formula : Int → Int → Int) : Prop :=
  ∀ a b coin,
    decodeFields { mode := BitVec.ofNat 4 mode, a, b, coin } = make a b coin ∧
    (∀ s, Delivers (make a b coin) s (blend mode a b coin)) ∧
    ∀ c, ((chan (blend mode a b coin) c).toNat : Int) = formula (chan a c).toNat (chan b c).toNat

/-- Every bit of the four operand ports is 0 or 1 (92_eei_decisions.md D14). -/
def Ports.dataDefined (p : Ports) : Prop :=
  p.a.undef = 0 ∧ p.b.undef = 0 ∧ p.mode.undef = 0 ∧ p.coin.undef = 0

/-- Every bit of every port is 0 or 1 (92_eei_decisions.md D14). -/
def Ports.allDefined (p : Ports) : Prop :=
  p.dataDefined ∧ p.clk.undef = 0 ∧ p.rst.undef = 0 ∧ p.inValid.undef = 0

/-- The pixel `Blend` gives for the values on the operand ports (10_state.md R25). -/
def Ports.blended (p : Ports) : Pixel :=
  blend p.mode.val.toNat p.a.val p.b.val p.coin.val

/-- The result a stage holds, if its valid bit is 1 (10_state.md R26). -/
def Stage.result (st : Stage) : Option Pixel :=
  if st.v then some st.d else none

/-- The result of the evaluation the lines present to a rising edge, if `in_valid` is 1 (10_state.md R26). -/
def Ports.presented (p : Ports) : Option Pixel :=
  if p.inValid.val = 1 then some p.blended else none

/-- What a user reads from the outputs with `BLEND_LATENCY` ≥ 1: `y` while `out_valid` = 1, else nothing
(10_state.md R26). -/
def State.output (s : State) : Option Pixel :=
  if s.outValid = some true then some s.y else none

/-- A run of steps of which each either has a rising edge and `rst` = 0, or has no rising edge, the clock being stopped
(60_exceptions.md R108). The list is what the inputs sampled at the edges present, the latest first; a step without an
edge samples nothing. The lines of a state after a step are those driven at it. -/
inductive EdgeRun : State → List (Option Pixel) → State → Prop where
  | refl (s : State) : EdgeRun s [] s
  | edge {s t u : State} {ins : List (Option Pixel)} (run : EdgeRun s ins t) (move : step t = .next u)
      (clock : u.ports.clk = driven 1) (noReset : u.ports.rst = driven 0) :
      EdgeRun s (u.ports.presented :: ins) u
  | held {s t u : State} {ins : List (Option Pixel)} (run : EdgeRun s ins t) (move : step t = .next u)
      (stopped : u.ports.clk = driven 0) :
      EdgeRun s ins u

/-- The newest result given since the last reset edge: the one in the earliest stage that holds one, the last stage
aside, since it has been on `y`; else the last one read. -/
def newest (s : State) : Option Pixel :=
  match s.stages.dropLast.find? Stage.v with
  | some st => some st.d
  | none => s.prev

/-- The lines reset the block at this step (10_state.md R26). -/
def resets (s : State) : Prop :=
  s.stages ≠ [] ∧ s.ports.clk.val = 1 ∧ s.ports.rst.val = 1

/-- The lines present an evaluation at this step: always with `BLEND_LATENCY` = 0 (10_state.md R25), else at a rising
edge with `rst` = 0 and `in_valid` = 1 (R26). -/
def evaluates (s : State) : Prop :=
  s.stages = [] ∨ (s.ports.clk.val = 1 ∧ s.ports.rst.val ≠ 1 ∧ s.ports.inValid.val = 1)

/-- The state with the caller about to drive the given lines. -/
def State.withLines (s : State) (p : Ports) : State :=
  { s with feed := .lines p :: s.feed }

/-- The pixel an operand stands for where the previous evaluation gave `y` (30_encoding.md R47). -/
def operandValue (y : Pixel) : Operand → Pixel
  | .pixel p => p
  | .prev => y

/-- The operand a written operand stands for: the hex number, the three channels, or `@` (30_encoding.md R46, R47). -/
def standsFor : SourceOperand → Operand → Prop
  | .hex v, .pixel p => p.toNat = v
  | .triple r g b, .pixel p => (chan p .r).toNat = r ∧ (chan p .g).toNat = g ∧ (chan p .b).toNat = b
  | .prev, .prev => True
  | .hex _, .prev | .triple _ _ _, .prev | .prev, .pixel _ => False

/-- How many stages hold a result. -/
def validCount (stages : List Stage) : Nat :=
  stages.countP Stage.v

/-- What every step keeps: the combinational output is `Blend` of the present inputs where they are defined
(10_state.md R25), and the harness waits for exactly the results in the stages before the last, since the last is on `y`
(30_encoding.md R47). -/
def BlockInv (s : State) : Prop :=
  (s.ports.dataDefined → s.blendOut = s.ports.blended) ∧
  s.inFlight = validCount s.stages.dropLast

end Sys2Proof.Machine
end

