-- ==== Sys2Proof/Certificates/Slice0/Obligations.lean ====
section
/-! DEFINITION. The statements for the provers. The rules R<n> are those of spec/. -/

open Sys2Proof Sys2Proof.Machine

/-! ## The modes -/

/-- 40_additive.md R60, its corner cases and its example. -/
def Obligations.AddSaturatesEachChannel : Prop :=
  PerChannelRule .add 0 (fun x y => min (x + y) 255) ∧
  (∀ x, channelFn 0 x 0 = x) ∧ (∀ y, channelFn 0 0 y = y) ∧ (∀ b coin, blend 0 0 b coin = b) ∧
  (∀ x y : Channel, 255 ≤ x.toNat + y.toNat → channelFn 0 x y = 255) ∧
  channelFn 0 255 255 = 255 ∧ channelFn 0 250 250 = 255 ∧ channelFn 0 128 127 = 255 ∧
  (∀ x y, channelFn 0 x y = channelFn 0 y x) ∧
  (∀ x, (channelFn 0 x x).toNat = min (2 * x.toNat) 255) ∧
  blend 0 0xFA6400 0xFAC81E 0 = 0xFFFF1E ∧ encode (.add 0xFA6400 0xFAC81E 0) = 0x00FA6400FAC81E

/-- 40_additive.md R61, its corner cases and its example. -/
def Obligations.SubtractSaturatesEachChannel : Prop :=
  PerChannelRule .subtract 1 (fun x y => max (x - y) 0) ∧
  (∀ x, channelFn 1 x 0 = x) ∧ (∀ y, channelFn 1 0 y = 0) ∧ (∀ x, channelFn 1 x x = 0) ∧
  (∀ x y : Channel, x.toNat ≤ y.toNat → channelFn 1 x y = 0) ∧
  channelFn 1 127 128 = 0 ∧ channelFn 1 128 127 = 1 ∧
  (∃ x y, channelFn 1 x y ≠ channelFn 1 y x) ∧ channelFn 1 255 0 = 255 ∧
  blend 1 0xFA6400 0xFAC81E 0 = 0x000000 ∧ encode (.subtract 0xFA6400 0xFAC81E 0) = 0x01FA6400FAC81E

/-- 40_additive.md R62, its corner cases and its example. -/
def Obligations.AddWrapIsModular : Prop :=
  PerChannelRule .addWrap 2 (fun x y => (x + y) % 256) ∧
  (∀ x, channelFn 2 x 0 = x ∧ channelFn 2 0 x = x) ∧
  channelFn 2 250 250 = 244 ∧ channelFn 2 250 250 ≠ channelFn 0 250 250 ∧
  channelFn 2 255 255 = 254 ∧ channelFn 2 128 128 = 0 ∧ channelFn 2 255 1 = 0 ∧
  (∀ x y, channelFn 2 x y = channelFn 2 y x) ∧
  blend 2 0xFA6400 0xFAC81E 0 = 0xF42C1E ∧ encode (.addWrap 0xFA6400 0xFAC81E 0) = 0x02FA6400FAC81E

/-- 40_additive.md R63, its corner cases and its example. -/
def Obligations.SubtractWrapIsModular : Prop :=
  PerChannelRule .subtractWrap 3 (fun x y => (x - y) % 256) ∧
  (∀ x, channelFn 3 x 0 = x) ∧ (∀ x, channelFn 3 x x = 0) ∧
  channelFn 3 0 255 = 1 ∧ channelFn 3 0 1 = 255 ∧ channelFn 3 100 200 = 156 ∧ channelFn 3 127 128 = 255 ∧
  (∃ x y, channelFn 3 x y ≠ channelFn 3 y x) ∧
  (∀ x y, ((channelFn 3 x y).toNat + (channelFn 3 y x).toNat) % 256 = 0) ∧
  blend 3 0xFA6400 0xFAC81E 0 = 0x009CE2 ∧ encode (.subtractWrap 0xFA6400 0xFAC81E 0) = 0x03FA6400FAC81E

/-- 40_additive.md R64: modes 14 and 15 are the values that match `mode[3:1]` = 111; they, and every number of a
wider field from 14 on, compute what Add computes. -/
def Obligations.UndefinedModesFallBackToAdd : Prop :=
  PerChannelRule .rsv14 14 (fun x y => min (x + y) 255) ∧
  PerChannelRule .rsv15 15 (fun x y => min (x + y) 255) ∧
  (∀ m : ModeNumber, m.extractLsb' 1 3 = 7 ↔ m = 14 ∨ m = 15) ∧
  (∀ n, 14 ≤ n → ∀ a b coin, blend n a b coin = blend 0 a b coin) ∧
  blend 14 0xFA6400 0xFAC81E 0 = 0xFFFF1E ∧ encode (.rsv14 0xFA6400 0xFAC81E 0) = 0x0EFA6400FAC81E

/-- 41_multiply_select.md R70, its corner cases and its example. -/
def Obligations.MultiplyShiftsProductByEight : Prop :=
  PerChannelRule .multiply 4 (fun x y => x * y / 256) ∧
  (∀ x, channelFn 4 x 0 = 0 ∧ channelFn 4 0 x = 0) ∧ (∀ a coin, blend 4 a 0 coin = 0) ∧
  (∀ x : Channel, 1 ≤ x.toNat → (channelFn 4 x 255).toNat = x.toNat - 1) ∧ channelFn 4 0 255 = 0 ∧
  channelFn 4 255 255 = 254 ∧ (∀ x y, (channelFn 4 x y).toNat ≤ 254) ∧ (∀ y, channelFn 4 1 y = 0) ∧
  channelFn 4 128 128 = 64 ∧ (∀ x y, channelFn 4 x y = channelFn 4 y x) ∧
  (∀ x y, (channelFn 4 x y).toNat ≤ min x.toNat y.toNat) ∧
  blend 4 0xFA6400 0xFAC81E 0 = 0xF44E00 ∧ encode (.multiply 0xFA6400 0xFAC81E 0) = 0x04FA6400FAC81E

/-- 41_multiply_select.md R71: number 5 is Dissolve, and the whole pixel comes from the side the coin selects. That
the coin is fair is no property of the block and is not claimed. -/
def Obligations.DissolveSelectsWholePixel : Prop :=
  (∀ a b coin, decodeFields { mode := 5, a, b, coin } = .dissolve a b coin) ∧
  (∀ a b s, Delivers (.dissolve a b 1) s b ∧ Delivers (.dissolve a b 0) s a) ∧
  (∀ a coin s, Delivers (.dissolve a a coin) s a) ∧
  (∀ a b coin, blend 5 a b coin = a ∨ blend 5 a b coin = b) ∧
  blend 5 0xFA6400 0xFAC81E 1 = 0xFAC81E ∧ encode (.dissolve 0xFA6400 0xFAC81E 1) = 0x15FA6400FAC81E ∧
  blend 5 0xFA6400 0xFAC81E 0 = 0xFA6400 ∧ encode (.dissolve 0xFA6400 0xFAC81E 0) = 0x05FA6400FAC81E

/-- 41_multiply_select.md R72, its corner cases and its example. -/
def Obligations.AverageRoundsDown : Prop :=
  PerChannelRule .average 6 (fun x y => (x + y) / 2) ∧
  channelFn 6 255 255 = 255 ∧ channelFn 6 0 1 = 0 ∧ channelFn 6 255 254 = 254 ∧ channelFn 6 0 255 = 127 ∧
  (∀ x, channelFn 6 x x = x) ∧ (∀ x y, channelFn 6 x y = channelFn 6 y x) ∧
  (∀ x, channelFn 6 x 0 = x >>> 1) ∧
  blend 6 0xFA6400 0xFAC81E 0 = 0xFA960F ∧ encode (.average 0xFA6400 0xFAC81E 0) = 0x06FA6400FAC81E

/-- 41_multiply_select.md R73, its corner cases and its example. -/
def Obligations.SetReplacesByLayer : Prop :=
  (∀ a b coin, decodeFields { mode := 7, a, b, coin } = .set a b coin) ∧
  (∀ a b coin s, Delivers (.set a b coin) s b) ∧
  (∀ a b coin, blend 7 a b coin = b) ∧
  encode (.set 0xFA6400 0xFAC81E 0) = 0x07FA6400FAC81E

/-- 42_screen_minmax.md R80, its corner cases and its example. -/
def Obligations.ScreenInvertsProductOfInverses : Prop :=
  PerChannelRule .screen 8 (fun x y => 255 - (255 - x) * (255 - y) / 256) ∧
  channelFn 8 0 0 = 1 ∧ (∀ x y, 1 ≤ (channelFn 8 x y).toNat) ∧
  (∀ x : Channel, x.toNat ≤ 254 →
    (channelFn 8 x 0).toNat = x.toNat + 1 ∧ (channelFn 8 0 x).toNat = x.toNat + 1) ∧
  channelFn 8 255 0 = 255 ∧ (∀ x, channelFn 8 x 255 = 255 ∧ channelFn 8 255 x = 255) ∧
  (∀ x y, channelFn 8 x y = channelFn 8 y x) ∧ channelFn 8 128 128 = 192 ∧
  (∀ x y, max x.toNat y.toNat ≤ (channelFn 8 x y).toNat) ∧
  blend 8 0xFA6400 0xFAC81E 0 = 0xFFDE1F ∧ encode (.screen 0xFA6400 0xFAC81E 0) = 0x08FA6400FAC81E

/-- 42_screen_minmax.md R81, its corner cases and its example. -/
def Obligations.LightenIsChannelMaximum : Prop :=
  PerChannelRule .lighten 9 (fun x y => max x y) ∧
  (∀ coin, blend 9 0xFF0000 0x00FF00 coin = 0xFFFF00) ∧
  (∀ x, channelFn 9 x 0 = x ∧ channelFn 9 0 x = x) ∧ (∀ x, channelFn 9 x 255 = 255 ∧ channelFn 9 255 x = 255) ∧
  (∀ x, channelFn 9 x x = x) ∧ (∀ x y, channelFn 9 x y = channelFn 9 y x) ∧
  blend 9 0xFA6400 0xFAC81E 0 = 0xFAC81E ∧ encode (.lighten 0xFA6400 0xFAC81E 0) = 0x09FA6400FAC81E

/-- 42_screen_minmax.md R82, its corner cases and its example. -/
def Obligations.DarkenIsChannelMinimum : Prop :=
  PerChannelRule .darken 10 (fun x y => min x y) ∧
  (∀ x, channelFn 10 x 255 = x ∧ channelFn 10 255 x = x) ∧ (∀ x, channelFn 10 x 0 = 0 ∧ channelFn 10 0 x = 0) ∧
  (∀ a coin, blend 10 a 0 coin = 0) ∧
  (∀ x, channelFn 10 x x = x) ∧ (∀ x y, channelFn 10 x y = channelFn 10 y x) ∧
  blend 10 0xFA6400 0xFAC81E 0 = 0xFA6400 ∧ encode (.darken 0xFA6400 0xFAC81E 0) = 0x0AFA6400FAC81E

/-- 42_screen_minmax.md R83, its corner cases and its example. -/
def Obligations.DifferenceIsAbsolute : Prop :=
  PerChannelRule .difference 11 (fun x y => |x - y|) ∧
  (∀ x, channelFn 11 x x = 0) ∧ (∀ x, channelFn 11 x 0 = x ∧ channelFn 11 0 x = x) ∧
  (∀ x : Channel, (channelFn 11 x 255).toNat = 255 - x.toNat) ∧
  channelFn 11 127 128 = 1 ∧ channelFn 11 128 127 = 1 ∧ (∀ x y, channelFn 11 x y = channelFn 11 y x) ∧
  channelFn 11 0 255 = 255 ∧ channelFn 3 0 255 = 1 ∧
  blend 11 0xFA6400 0xFAC81E 0 = 0x00641E ∧ encode (.difference 0xFA6400 0xFAC81E 0) = 0x0BFA6400FAC81E

/-- 43_overlay_dodge.md R90, its corner cases and its example: the base gates, per channel. -/
def Obligations.OverlayGatedOnBase : Prop :=
  PerChannelRule .overlay 12
    (fun x y => if x < 128 then 2 * x * y / 256 else 255 - 2 * (255 - x) * (255 - y) / 256) ∧
  (∀ x y : Channel, x.toNat ≤ 127 → (channelFn 12 x y).toNat ≤ 253) ∧
  (∀ x : Channel, x.toNat ≤ 127 → channelFn 12 x 0 = 0) ∧ channelFn 12 127 255 = 253 ∧
  (∀ x : Channel, x.toNat ≤ 127 ∨ x = 255 → channelFn 12 x 128 = x) ∧
  (∀ x y : Channel, 128 ≤ x.toNat → 2 ≤ (channelFn 12 x y).toNat) ∧
  channelFn 12 128 0 = 2 ∧ channelFn 12 128 128 = 129 ∧ channelFn 12 128 255 = 255 ∧
  channelFn 12 127 0 = 0 ∧ channelFn 12 127 127 = 126 ∧ channelFn 12 128 127 = 128 ∧
  (∀ y, channelFn 12 0 y = 0 ∧ channelFn 12 255 y = 255) ∧
  channelFn 12 100 200 = 156 ∧ channelFn 12 200 100 = 189 ∧
  (∀ x : Channel, 128 ≤ x.toNat → (channelFn 12 x 0).toNat = 255 - 2 * (255 - x.toNat) * 255 / 256) ∧
  blend 12 0xFA6400 0xFAC81E 0 = 0xFF9C00 ∧ encode (.overlay 0xFA6400 0xFAC81E 0) = 0x0CFA6400FAC81E

/-- 43_overlay_dodge.md R91, its corner cases and its example: the blend guards, per channel, before the division. -/
def Obligations.ColorDodgeGuardedOnBlend : Prop :=
  PerChannelRule .colorDodge 13 (fun x y => if y = 255 then 255 else min 255 (x * 256 / (255 - y))) ∧
  (∀ y : Channel, y ≠ 255 → 1 ≤ 255 - y.toNat) ∧
  (∀ x, channelFn 13 x 255 = 255) ∧ (∀ x, channelFn 13 x 0 = x) ∧ (∀ a coin, blend 13 a 0 coin = a) ∧
  (∀ y : Channel, y.toNat ≤ 254 → channelFn 13 0 y = 0) ∧
  (∀ x : Channel, 1 ≤ x.toNat → channelFn 13 x 254 = 255) ∧
  (∀ x y : Channel, y ≠ 255 → x.toNat * 256 / (255 - y.toNat) ≤ 65280) ∧ 255 * 256 / (255 - 254) = 65280 ∧
  channelFn 13 64 64 = 85 ∧ (∃ x y, channelFn 13 x y ≠ channelFn 13 y x) ∧
  blend 13 0xFA6400 0xFAC81E 0 = 0xFFFF00 ∧ encode (.colorDodge 0xFA6400 0xFAC81E 0) = 0x0DFA6400FAC81E

/-! ## Laws of the families -/

/-- The laws 40_additive.md R65 derives from the rules of its file. -/
def Obligations.AdditiveFamilyLaws : Prop :=
  (∀ f ∈ [addFormula, subtractFormula, addWrapFormula, subtractWrapFormula], StaysInRange f) ∧
  (∀ m ∈ [0, 1, 2, 3, 14, 15], (∃ x y, channelFn m x y = 0) ∧ ∃ x y, channelFn m x y = 255) ∧
  (∀ m ∈ [0, 1, 2, 3, 14, 15], ∀ a coin, blend m a 0 coin = a) ∧
  (∀ a b coin, blend 0 a b coin = blend 2 a b coin ↔ ∀ c, (chan a c).toNat + (chan b c).toNat ≤ 255) ∧
  (∀ a b coin, blend 1 a b coin = blend 3 a b coin ↔ ∀ c, (chan b c).toNat ≤ (chan a c).toNat) ∧
  (∀ a b coin, blend 1 (blend 0 a b coin) b coin = a ↔ ∀ c, (chan a c).toNat + (chan b c).toNat ≤ 255) ∧
  (∀ a b coin, blend 3 (blend 2 a b coin) b coin = a) ∧
  (∀ m ∈ [0, 2], ∀ a b c coin, blend m a b coin = blend m b a coin ∧
    blend m (blend m a b coin) c coin = blend m a (blend m b c coin) coin) ∧
  (∀ x y z, (channelFn 0 (channelFn 0 x y) z).toNat = min (x.toNat + y.toNat + z.toNat) 255)

/-- The laws 41_multiply_select.md R74 derives from the rules of its file. -/
def Obligations.MultiplySelectFamilyLaws : Prop :=
  (∀ a b coin c, chan (blend 4 a b coin) c ≠ 255) ∧
  (∀ a coin, blend 4 a 0 coin = 0 ∧ blend 4 0 a coin = 0) ∧
  (∀ m ∈ [4, 6], ∀ a b coin, blend m a b coin = blend m b a coin) ∧ (∃ a b, blend 7 a b 0 ≠ blend 7 b a 0) ∧
  channelFn 4 (channelFn 4 2 129) 255 = 0 ∧ channelFn 4 2 (channelFn 4 129 255) = 1 ∧
  channelFn 6 (channelFn 6 0 0) 2 = 1 ∧ channelFn 6 0 (channelFn 6 0 2) = 0 ∧
  (∀ m ∈ [4, 6, 7], ∃ a, blend m a 0 0 ≠ a) ∧ (∀ a, blend 5 a 0 0 = a) ∧ (∃ a, blend 5 a 0 1 ≠ a) ∧
  (∀ x : Channel, 1 ≤ x.toNat → (channelFn 4 x 255).toNat = x.toNat - 1) ∧
  (∀ x, (channelFn 6 x 255).toNat = (x.toNat + 255) / 2) ∧
  (∀ m, m ≠ 5 → ∀ a b coin c, chan (blend m a b coin) c = channelFn m (chan a c) (chan b c)) ∧
  (¬ ∃ f : Channel → Channel → Channel, ∀ a b coin c, chan (blend 5 a b coin) c = f (chan a c) (chan b c)) ∧
  (∀ x y, channelFn 7 x y = y)

/-- The laws 42_screen_minmax.md R84 derives from the rules of its file and of the two before it. Where black `b` is an
identity it speaks of all 14 modes: not in Overlay (43_overlay_dodge.md R90), in ColorDodge (R91), as R92 says too. -/
def Obligations.ScreenMinMaxFamilyLaws : Prop :=
  (∀ m ∈ [9, 10], ∀ a b c coin, blend m a a coin = a ∧ blend m a b coin = blend m b a coin ∧
    blend m (blend m a b coin) c coin = blend m a (blend m b c coin) coin) ∧
  (∀ x y, (channelFn 9 x y = x ∧ channelFn 10 x y = y) ∨ (channelFn 9 x y = y ∧ channelFn 10 x y = x)) ∧
  (∀ m ∈ [8, 11], ∀ a b coin, blend m a b coin = blend m b a coin) ∧
  channelFn 8 (channelFn 8 0 0) 127 = 128 ∧ channelFn 8 0 (channelFn 8 0 127) = 129 ∧
  (∃ x y z, channelFn 11 (channelFn 11 x y) z ≠ channelFn 11 x (channelFn 11 y z)) ∧
  (∀ x : Channel, x.toNat ≤ 254 → (channelFn 8 x 0).toNat = x.toNat + 1) ∧ (∀ a coin, blend 10 a 0 coin = 0) ∧
  (∀ m < 14, (∀ a coin, blend m a 0 coin = a) ↔ m ∈ [0, 1, 2, 3, 9, 11, 13])

/-- The laws 43_overlay_dodge.md R92 derives from the rules of its file. -/
def Obligations.OverlayDodgeFamilyLaws : Prop :=
  StaysInRange overlayFormula ∧ StaysInRange colorDodgeFormula ∧
  (∀ a coin, blend 13 a 0 coin = a) ∧ (∃ a, blend 12 a 0 0 ≠ a) ∧
  (∀ x : Channel, channelFn 12 x 128 = x ↔ x.toNat ≤ 127 ∨ x = 255) ∧
  (∀ y, channelFn 12 0 y = 0 ∧ channelFn 12 255 y = 255) ∧
  (∀ x y : Channel, x.toNat ≤ (channelFn 13 x y).toNat)

/-- 00_scope.md R9: every formula gives a value in 0..255 for channel values, so that putting it into 8 bits drops
nothing. -/
def Obligations.FormulasStayInChannelRange : Prop :=
  ∀ f ∈ [addFormula, subtractFormula, addWrapFormula, subtractWrapFormula, multiplyFormula, averageFormula,
      screenFormula, lightenFormula, darkenFormula, differenceFormula, overlayFormula, colorDodgeFormula],
    StaysInRange f

/-! ## Encoding -/

/-- 00_scope.md R10 and 20_memory.md R32: where the channels stand, and that packing and extraction are inverse. -/
def Obligations.PixelPackingIsRgb : Prop :=
  (∀ p : Pixel, (chan p .r).toNat = p.toNat / 2 ^ 16 ∧ (chan p .g).toNat = p.toNat / 2 ^ 8 % 2 ^ 8 ∧
    (chan p .b).toNat = p.toNat % 2 ^ 8) ∧
  (∀ r g b, chan (pix r g b) .r = r ∧ chan (pix r g b) .g = g ∧ chan (pix r g b) .b = b) ∧
  (∀ p, pix (chan p .r) (chan p .g) (chan p .b) = p)

/-- 30_encoding.md R41: the number of every mode. -/
def Obligations.ModeNumbersFollowTable : Prop :=
  ∀ a b coin,
    decodeFields ⟨0, a, b, coin⟩ = .add a b coin ∧ decodeFields ⟨1, a, b, coin⟩ = .subtract a b coin ∧
    decodeFields ⟨2, a, b, coin⟩ = .addWrap a b coin ∧ decodeFields ⟨3, a, b, coin⟩ = .subtractWrap a b coin ∧
    decodeFields ⟨4, a, b, coin⟩ = .multiply a b coin ∧ decodeFields ⟨5, a, b, coin⟩ = .dissolve a b coin ∧
    decodeFields ⟨6, a, b, coin⟩ = .average a b coin ∧ decodeFields ⟨7, a, b, coin⟩ = .set a b coin ∧
    decodeFields ⟨8, a, b, coin⟩ = .screen a b coin ∧ decodeFields ⟨9, a, b, coin⟩ = .lighten a b coin ∧
    decodeFields ⟨10, a, b, coin⟩ = .darken a b coin ∧ decodeFields ⟨11, a, b, coin⟩ = .difference a b coin ∧
    decodeFields ⟨12, a, b, coin⟩ = .overlay a b coin ∧ decodeFields ⟨13, a, b, coin⟩ = .colorDodge a b coin ∧
    decodeFields ⟨14, a, b, coin⟩ = .rsv14 a b coin ∧ decodeFields ⟨15, a, b, coin⟩ = .rsv15 a b coin

/-- 30_encoding.md R42: whatever is on the ports decodes to an operation that delivers `Blend` of it, the fallback to
Add with nothing to tell it from Add. -/
def Obligations.EveryModeDeliversBlend : Prop :=
  (∀ f s, Delivers (decodeFields f) s (blend f.mode.toNat f.a f.b f.coin)) ∧
  (∀ a b coin s, exec (.rsv14 a b coin) s = exec (.add a b coin) s ∧
    exec (.rsv15 a b coin) s = exec (.add a b coin) s) ∧
  (∀ n, 14 ≤ n → ∀ a b coin, blend n a b coin = blend 0 a b coin)

/-- Only Dissolve reads `coin`: 30_encoding.md R44, derived there from the modes' rules. -/
def Obligations.OnlyDissolveReadsCoin : Prop :=
  (∀ (f : Fields) coin s, f.mode ≠ 5 → exec (decodeFields f) s = exec (decodeFields { f with coin := coin }) s) ∧
  ∃ a b s, exec (.dissolve a b 0) s ≠ exec (.dissolve a b 1) s

/-- 30_encoding.md R45: the word is `{coin, mode, a, b}`, read back field by field. -/
def Obligations.WordLayoutIsCoinModeAB : Prop :=
  (∀ f, (wordOfFields f).toNat =
    f.coin.toNat * 2 ^ 52 + f.mode.toNat * 2 ^ 48 + f.a.toNat * 2 ^ 24 + f.b.toNat) ∧
  (∀ w, (fieldsOfWord w).coin.toNat = w.toNat / 2 ^ 52 ∧ (fieldsOfWord w).mode.toNat = w.toNat / 2 ^ 48 % 2 ^ 4 ∧
    (fieldsOfWord w).a.toNat = w.toNat / 2 ^ 24 % 2 ^ 24 ∧ (fieldsOfWord w).b.toNat = w.toNat % 2 ^ 24) ∧
  decode 0x00FAFAFAFAFAFA = .add 0xFAFAFA 0xFAFAFA 0

/-- Decode and encode agree: every evaluation, with every operand, is read back from its word, and every word is the
word of the evaluation it is read as (30_encoding.md R45, R46: decoding is one-to-one). -/
def Obligations.DecodeEncodeAgree : Prop :=
  (∀ i, decode (encode i) = i) ∧ ∀ w, encode (decode w) = w

/-- The 14 hex digits: every evaluation is read back from its digits, and seven bytes are accepted exactly where the
first digit is 0 or 1; no other number of bytes is (30_encoding.md R45). -/
def Obligations.HexDigitsDecode : Prop :=
  (∀ i, decodeBytes (encodeBytes i) = .ok i) ∧
  (∀ bytes i, decodeBytes bytes = .ok i → encodeBytes i = bytes) ∧
  (∀ bytes, (∃ i, decodeBytes bytes = .ok i) ↔ bytes.length = 7 ∧ (bytes.headD 0).toNat / 16 ≤ 1)

/-- 30_encoding.md R46: the disassembler's line is read back as a well-formed line that stands for the evaluation it
was printed from; so no two evaluations print alike. The lines it does not print are SourceLinesAreReadAndAssembled's. -/
def Obligations.DisassemblyIsReadBack : Prop :=
  (∀ i, ∃ l, parseLine (disassemble i) = some l ∧ assemble l = some (evaluationOf i) ∧
    ∀ s, resolve s (evaluationOf i) = some (encodeFields i)) ∧
  ∀ i j, disassemble i = disassemble j → i = j

/-- 30_encoding.md R46 and R47, every form of a source line: a hex pixel, a decimal triple or `@` in either operand
position, the coin given or omitted. A line written as R46 writes it is read back; it assembles exactly where its
numbers are in range; and what it assembles to has its mode, the operands it stands for, and its coin, 0 where omitted.
A program assembles line by line, exactly where its lines are in range and the first does not use `@`. (That blanks are
written as `printLine` writes them and skipped elsewhere is the model's choice, log entry 12.) -/
def Obligations.SourceLinesAreReadAndAssembled : Prop :=
  (∀ l : SourceLine, l.wellFormed = true → parseLine (printLine l) = some l) ∧
  (∀ l : SourceLine, (∃ e, assemble l = some e) ↔ l.wellFormed = true) ∧
  (∀ l e, assemble l = some e →
    e.mode = l.mode ∧ standsFor l.a e.a ∧ standsFor l.b e.b ∧
    (l.coin = none → e.coin = .given 0) ∧ (∀ c, l.coin = some c → ∃ v : Coin, e.coin = .given v ∧ v.toNat = c)) ∧
  (∀ lines, (∃ program, assembleProgram lines = some program) ↔ programWellFormed lines = true) ∧
  ∀ lines program, assembleProgram lines = some program → lines.map assemble = program.map some

/-- Words written out from 30_encoding.md R45 decode to the evaluation they stand for (spec vectors V2, V11, DV2, V30,
FV2). -/
def Obligations.SampleWordsDecode : Prop :=
  decode 0x00FAFAFAFAFAFA = .add 0xFAFAFA 0xFAFAFA 0 ∧ decode 0x03000000FF0164 = .subtractWrap 0 0xFF0164 0 ∧
  decode 0x15FF000000FF00 = .dissolve 0xFF0000 0x00FF00 1 ∧ decode 0x0C7F8000000000 = .overlay 0x7F8000 0 0 ∧
  decode 0x1FFAFAFAFAFAFA = .rsv15 0xFAFAFA 0xFAFAFA 1

/-! ## The step -/

/-- A step runs the decoded instruction: when the lines next driven present the tuple `f`, the step is `exec` of the
instruction `f` decodes to, on the state with those lines. The model's choice (log entry 7) is what the harness of
30_encoding.md R47 does around it: `issue` counts the evaluation, `observe` reads `y`, and with `BLEND_LATENCY` = 0 `@`
(`prev`) becomes the `y` that `exec` leaves. -/
def Obligations.StepRunsDecodedInstruction : Prop :=
  ∀ (s : State) (f : Fields), ∃ t, exec (decodeFields f) { s with ports := portsOf f } = .next t ∧
    step (s.withLines (portsOf f)) = .next (observe (issue t)) ∧
    (observe (issue t)).ports = portsOf f ∧ (observe (issue t)).blendOut = t.blendOut ∧
    (observe (issue t)).stages = t.stages ∧ (observe (issue t)).draws = t.draws ∧
    (observe (issue t)).feed = s.feed ∧
    (s.stages = [] → (observe (issue t)).prev = some t.y)

/-- `withFetchWord` places the instruction that `decodeTableWord` reads as the next one: a step then runs it (the
table's numbering of the operands is the model's choice, log entry 1; so are the harness's `issue` and `observe` around
`exec`, log entry 7). -/
def Obligations.FetchWordRunsNext : Prop :=
  ∀ (s : State) (nbits w : Nat) (i : Instr), decodeTableWord nbits w = some i →
    ∃ t, exec i { s with ports := portsOf (encodeFields i) } = .next t ∧
      step (s.withFetchWord nbits w) = .next (observe (issue t))

/-- 10_state.md R25: with `BLEND_LATENCY` = 0, whatever the lines of the absent ports, a step with defined operands
answers, and `y` is `Blend` of the present inputs. -/
def Obligations.CombinationalOutputIsBlend : Prop :=
  ∀ (s : State) (p : Ports), s.stages = [] → p.dataDefined →
    ∃ t, step (s.withLines p) = .next t ∧
      t.y = blend p.mode.val.toNat p.a.val p.b.val p.coin.val ∧ t.ports = p ∧ t.stages = [] ∧ t.outValid = none

/-- 10_state.md R26: what each rising edge does to the stages, that nothing changes without one, and what the outputs
show. -/
def Obligations.PipelineEdges : Prop :=
  (∀ (s : State) (p : Ports), s.stages ≠ [] → p.clk = driven 1 →
    (p.rst = driven 1 → ∃ t, step (s.withLines p) = .next t ∧
      t.stages.map Stage.v = s.stages.map (fun _ => false)) ∧
    (p.rst = driven 0 → ∀ v, p.inValid = driven v → (v = 1 → p.dataDefined) →
      ∃ t d, step (s.withLines p) = .next t ∧ t.stages = ⟨decide (v = 1), d⟩ :: s.stages.dropLast ∧
        (p.dataDefined → d = p.blended))) ∧
  (∀ (s : State) (p : Ports), s.stages ≠ [] → p.clk = driven 0 → ∃ t, step (s.withLines p) = .next t ∧ t.stages = s.stages) ∧
  (∀ (s : State) (older : List Stage) (last : Stage), s.stages = older ++ [last] →
    s.outValid = some last.v ∧ (last.v = true → s.y = last.d))

/-- 70_reset_and_hazards.md R111, the reset edge: `out_valid` is 0 from it until an evaluation sampled after it has
passed the L stages, whatever the stages held before, and also if the clock stops between edges (60_exceptions.md R108).
The clauses `t.inFlight = 0` and `BlockInv t`, the harness's count after a reset (30_encoding.md R47), are the model's
choice (log entry 7). -/
def Obligations.ResetEmptiesPipeline : Prop :=
  ∀ (s : State) (p : Ports), s.stages ≠ [] → p.clk = driven 1 → p.rst = driven 1 →
    ∃ t, step (s.withLines p) = .next t ∧ t.stages.length = s.stages.length ∧ t.outValid = some false ∧
      t.inFlight = 0 ∧ BlockInv t ∧
      ∀ (ins : List (Option Pixel)) (u : State), EdgeRun t ins u → u.output = (ins[s.stages.length - 1]?).getD none

/-- 10_state.md R28: the state after reset, for every `BLEND_LATENCY`. That `State.reset` itself has no stage and zero
lines is the model's choice (log entries 3 and 8). -/
def Obligations.ResetValues : Prop :=
  (∀ latency, (State.resetOf latency).stages.map Stage.v = List.replicate latency false) ∧
  (∀ latency, 1 ≤ latency → (State.resetOf latency).outValid = some false) ∧
  (State.resetOf 0).outValid = none ∧
  (State.resetOf 0).y = (State.resetOf 0).ports.blended

/-- The invariant holds right after reset, for every `BLEND_LATENCY`. The lines at reset, the harness's notes and
the latency of `State.reset` are the model's choices (log entries 3, 7 and 8). -/
def Obligations.ResetMeetsInvariant : Prop :=
  BlockInv State.reset ∧ ∀ latency, BlockInv (State.resetOf latency)

/-- Every step keeps the invariant: the combinational output is `Blend` of the present inputs (10_state.md R25), and
the harness waits for exactly the results still in the pipeline (30_encoding.md R47; how the harness keeps count is the
model's choice, log entry 7). -/
def Obligations.StepKeepsInvariant : Prop :=
  ∀ s t, BlockInv s → step s = .next t → BlockInv t

/-- `BLEND_LATENCY` is fixed: no step changes the number of stages (00_scope.md R6, 10_state.md R26). -/
def Obligations.StepKeepsLatency : Prop :=
  ∀ s t, step s = .next t → t.stages.length = s.stages.length

/-- The stages hold the results of the latest L inputs, in order: after any run of rising edges without reset, the
clock stopping between them at will (60_exceptions.md R108), stage by stage, they are what the inputs sampled at the
edges present, then what the stages held before (10_state.md R26, 20_memory.md R36). -/
def Obligations.StagesHoldLatestInputs : Prop :=
  ∀ (s : State) (ins : List (Option Pixel)) (t : State), s.stages ≠ [] → EdgeRun s ins t →
    t.stages.map Stage.result = (ins ++ s.stages.map Stage.result).take s.stages.length

/-- Latency and order (20_memory.md R36, 70_reset_and_hazards.md R114): an evaluation sampled at an edge is on `y` with
`out_valid` = 1 in the cycle after the (L-1)-th edge from it, and at no cycle does the output show anything but the
result of the evaluation sampled at that edge. Edges are counted, not steps: a stopped clock between them holds the
output (60_exceptions.md R108). -/
def Obligations.ResultsLeaveInOrderAfterLatency : Prop :=
  ∀ (s : State) (ins : List (Option Pixel)) (t : State) (r : Option Pixel), s.stages ≠ [] → EdgeRun s ins t → ins[s.stages.length - 1]? = some r → t.output = r

/-- No hidden state is observable (10_state.md R27, 20_memory.md R36): two blocks of the same latency that have been
given the same inputs for L edges show the same outputs, whatever they held before and wherever the clock of either
stopped between edges (60_exceptions.md R108). -/
def Obligations.OutputsForgetOlderState : Prop :=
  ∀ (s s' : State) (ins : List (Option Pixel)) (t t' : State), s.stages ≠ [] → s.stages.length = s'.stages.length → s.stages.length ≤ ins.length →
    EdgeRun s ins t → EdgeRun s' ins t' → t.output = t'.output

/-- 20_memory.md R35 with `BLEND_LATENCY` = 0: the same inputs give the same `y` in any two states, and again at the
next step. -/
def Obligations.SameInputsSameOutput : Prop :=
  ∀ (s s' : State) (p : Ports), s.stages = [] → s'.stages = [] → p.dataDefined →
    ∃ t t' u, step (s.withLines p) = .next t ∧ step (s'.withLines p) = .next t' ∧ t.y = t'.y ∧
      step (t.withLines p) = .next u ∧ u.y = t.y

/-- 60_exceptions.md R100: every instruction answers in every state; a step gives a next state or a refusal, and a next
state whenever every input bit driven is 0 or 1 (`Fault` has no constructor, so that no step faults says nothing more);
and ColorDodge's division is guarded: the formula and the instruction give 255 where the blend channel is 255, and
divide, by at least 1, only elsewhere. -/
def Obligations.NoException : Prop :=
  (∀ i s, ∃ t, exec i s = .next t) ∧
  (∀ s, (∃ t, step s = .next t) ∨ ∃ r, step s = .refused r) ∧
  (∀ (s : State) (p : Ports), p.allDefined → ∃ t, step (s.withLines p) = .next t) ∧
  (∀ x, colorDodgeFormula x 255 = 255) ∧
  (∀ x y : Int, 0 ≤ y → y ≤ 255 → y ≠ 255 → 1 ≤ 255 - y ∧ colorDodgeFormula x y = min 255 (x * 256 / (255 - y))) ∧
  (∀ a b coin s, ∃ t, exec (.colorDodge a b coin) s = .next t ∧
    ∀ c, (chan b c = 255 → chan t.blendOut c = 255) ∧
      (chan b c ≠ 255 → 1 ≤ 255 - (chan b c).toNat ∧
        (chan t.blendOut c).toNat = min 255 ((chan a c).toNat * 256 / (255 - (chan b c).toNat))))

/-- Exactly which steps are refused, by what the caller does next, and by which name. It drives given lines
(92_eei_decisions.md D14): an input bit the step needs is not 0 or 1 (the order in which the control lines are needed is
the model's reading, log entry 9). It presents an evaluation of a program: one that uses `@` where no result has been
read and the harness need not wait for one (30_encoding.md R47 gives that `@` no meaning; the harness and this refusal
are the model's choice, log entry 7). It has nothing left: with no stage, the lines it holds have an undefined operand
bit (that it holds them is the model's choice, log entry 2). -/
def Obligations.RefusesExactlyUndefinedInputs : Prop :=
  (∀ (s : State) (p : Ports) (rest : List Cue) (r : Refusal), s.stages = [] → s.feed = .lines p :: rest →
    (step s = .refused r ↔ r = .undefinedInput ∧ ¬ p.dataDefined)) ∧
  (∀ (s : State) (p : Ports) (rest : List Cue) (r : Refusal), s.stages ≠ [] → s.feed = .lines p :: rest →
    (step s = .refused r ↔
      (r = .undefinedControl ∧ (p.clk.undef ≠ 0 ∨
        p.clk = driven 1 ∧ (p.rst.undef ≠ 0 ∨ p.rst = driven 0 ∧ p.inValid.undef ≠ 0))) ∨
      (r = .undefinedInput ∧
        p.clk = driven 1 ∧ p.rst = driven 0 ∧ p.inValid = driven 1 ∧ ¬ p.dataDefined))) ∧
  (∀ (s : State) (e : Evaluation) (rest : List Cue) (r : Refusal), s.feed = .present e :: rest →
    (step s = .refused r ↔
      r = .noPreviousResult ∧ e.usesPrev = true ∧ s.prev = none ∧ (s.inFlight = 0 ∨ s.stages = []))) ∧
  ∀ (s : State) (r : Refusal), s.feed = [] →
    (step s = .refused r ↔ r = .undefinedInput ∧ s.stages = [] ∧ ¬ s.ports.dataDefined)

/-- No instruction is refused, and no step for want of a meaning (the model has a meaning for every row). -/
def Obligations.NothingLeftUnmodelled : Prop :=
  (∀ i s r, exec i s ≠ .refused r) ∧ ∀ s name, step s ≠ .refused (.notModelled name)

/-! ## The harness -/

/-- 30_encoding.md R47 with `BLEND_LATENCY` = 0: whatever the caller did one step before, lines it drove or an
evaluation of the program, itself with `@` or without, the `y` of that step is what `@` stands for in the evaluation
presented next, in the first operand position, the second, or both, its coin given or drawn. (The harness is the
model's, log entry 7; a drawn coin is any value, log entry 10.) -/
def Obligations.ChainedEvaluationReadsPreviousY : Prop :=
  ∀ (s : State) (first : Cue) (e : Evaluation) (rest : List Cue), s.stages = [] →
    s.feed = first :: .present e :: rest →
    (∀ p, first = .lines p → p.dataDefined) →
    (∀ e₀, first = .present e₀ → e₀.usesPrev = true → s.prev ≠ none) →
    ∃ t u, step s = .next t ∧ step t = .next u ∧ u.feed = rest ∧
      (∀ p, first = .lines p → t.y = p.blended) ∧
      (∀ e₀ q, first = .present e₀ → (e₀.usesPrev = true → s.prev = some q) →
        t.y = blend (modeNumber e₀.mode).toNat (operandValue q e₀.a) (operandValue q e₀.b)
          (coinValue s.draws e₀.coin)) ∧
      u.y = blend (modeNumber e.mode).toNat (operandValue t.y e.a) (operandValue t.y e.b) (coinValue t.draws e.coin)

/-- 30_encoding.md R47 and 70_reset_and_hazards.md R114 with `BLEND_LATENCY` ≥ 1: while a result is still awaited, an
evaluation that uses `@` is not presented; the pipeline advances by an edge with `in_valid` = 0
(what the harness drives meanwhile is the model's choice, log entry 7). -/
def Obligations.HarnessWaitsForPreviousResult : Prop :=
  ∀ (s : State) (e : Evaluation) (rest : List Cue), s.stages ≠ [] → s.feed = .present e :: rest → e.usesPrev = true → s.inFlight ≠ 0 →
    ∃ t, step s = .next t ∧ t.feed = s.feed ∧ t.ports = s.ports.idle ∧
      t.stages.map Stage.result = none :: s.stages.dropLast.map Stage.result

/-- The newest result is never lost before the next evaluation or reset, at any `BLEND_LATENCY`: an evaluation makes
its own result the newest, and a step that neither evaluates nor resets keeps it (30_encoding.md R47, 20_memory.md
R36; the harness's notes are the model's, log entry 7). -/
def Obligations.NewestResultIsKept : Prop :=
  ∀ s t, step s = .next t →
    (evaluates t → newest t = some t.blendOut) ∧ (¬ evaluates t → ¬ resets t → newest t = newest s)

/-- Where the harness need not wait, `@` stands for the newest result (30_encoding.md R47; with `BlockInv`, which every
step keeps; the harness's notes are the model's, log entry 7). -/
def Obligations.PrevOperandIsNewestResult : Prop :=
  ∀ s, BlockInv s → s.inFlight = 0 → operandPixel s.prev .prev = newest s
end

