-- ==== Sys2Proof/Laws/Operands.lean ====
section
/-! SUPPORT. Channels, packing and the per-channel application of a formula. -/

namespace Sys2Proof.Machine

theorem toNat_append {m n : Nat} (x : BitVec m) (y : BitVec n) :
    (x ++ y).toNat = x.toNat * 2 ^ n + y.toNat := by
  rw [BitVec.toNat_append, ← Nat.shiftLeft_add_eq_or_of_lt y.isLt, Nat.shiftLeft_eq]

/-- A packed pixel as a number (20_memory.md R32). -/
theorem toNat_pix (r g b : Channel) : (pix r g b).toNat = (r.toNat * 2 ^ 8 + g.toNat) * 2 ^ 8 + b.toNat := by
  rw [pix, toNat_append, toNat_append]

theorem toNat_chan (p : Pixel) :
    (chan p .r).toNat = p.toNat / 2 ^ 16 ∧ (chan p .g).toNat = p.toNat / 2 ^ 8 % 2 ^ 8 ∧
      (chan p .b).toNat = p.toNat % 2 ^ 8 := by
  have := p.isLt
  simp only [chan, BitVec.extractLsb'_toNat, Nat.shiftRight_eq_div_pow]
  exact ⟨by omega, trivial, by omega⟩

@[simp] theorem chan_pix_r (r g b : Channel) : chan (pix r g b) .r = r := by
  have := r.isLt; have := g.isLt; have := b.isLt
  apply BitVec.eq_of_toNat_eq
  rw [(toNat_chan _).1, toNat_pix]; omega

@[simp] theorem chan_pix_g (r g b : Channel) : chan (pix r g b) .g = g := by
  have := r.isLt; have := g.isLt; have := b.isLt
  apply BitVec.eq_of_toNat_eq
  rw [(toNat_chan _).2.1, toNat_pix]; omega

@[simp] theorem chan_pix_b (r g b : Channel) : chan (pix r g b) .b = b := by
  have := r.isLt; have := g.isLt; have := b.isLt
  apply BitVec.eq_of_toNat_eq
  rw [(toNat_chan _).2.2, toNat_pix]; omega

/-- A pixel is its three channels. -/
theorem pixel_ext {p q : Pixel} (h : ∀ c, chan p c = chan q c) : p = q := by
  have hr := congrArg BitVec.toNat (h .r)
  have hg := congrArg BitVec.toNat (h .g)
  have hb := congrArg BitVec.toNat (h .b)
  simp only [chan, BitVec.extractLsb'_toNat, Nat.shiftRight_eq_div_pow] at hr hg hb
  apply BitVec.eq_of_toNat_eq
  have := p.isLt
  have := q.isLt
  omega

/-- A channel of a per-channel mode is the formula of the same channel of the operands. -/
@[simp] theorem chan_perChannel (f : Int → Int → Int) (a b : Pixel) (c : ChannelName) :
    chan (perChannel f a b) c = onChannel f (chan a c) (chan b c) := by
  cases c <;> simp [perChannel]

theorem exactValue_nonneg (x : Channel) : 0 ≤ exactValue x := by
  simp [exactValue]

theorem exactValue_le (x : Channel) : exactValue x ≤ 255 := by
  have := x.isLt; simp only [exactValue]; omega

/-- Putting a value of 0..255 into a channel drops nothing. -/
theorem toNat_toChannel {v : Int} (h0 : 0 ≤ v) (h1 : v ≤ 255) : ((toChannel v).toNat : Int) = v := by
  simp only [toChannel, BitVec.toNat_ofInt]; omega

/-- The channel a formula gives, where its value is in range. -/
theorem toNat_onChannel {f : Int → Int → Int} {x y : Channel} (h0 : 0 ≤ f (exactValue x) (exactValue y))
    (h1 : f (exactValue x) (exactValue y) ≤ 255) : ((onChannel f x y).toNat : Int) = f x.toNat y.toNat :=
  toNat_toChannel h0 h1

end Sys2Proof.Machine
end

