-- ==== Sys2Proof/Laws/State.lean ====
section
/-! SUPPORT. What each update of the state does to each field. -/

namespace Sys2Proof.Machine

@[simp] theorem evaluate_ports (p : Pixel) (s : State) : (evaluate p s).ports = s.ports := rfl
@[simp] theorem evaluate_blendOut (p : Pixel) (s : State) : (evaluate p s).blendOut = p := rfl
@[simp] theorem evaluate_stages (p : Pixel) (s : State) : (evaluate p s).stages = shiftIn ⟨true, p⟩ s.stages := rfl
@[simp] theorem evaluate_draws (p : Pixel) (s : State) : (evaluate p s).draws = s.draws + 1 := rfl
@[simp] theorem evaluate_feed (p : Pixel) (s : State) : (evaluate p s).feed = s.feed := rfl
@[simp] theorem evaluate_inFlight (p : Pixel) (s : State) : (evaluate p s).inFlight = s.inFlight := rfl
@[simp] theorem evaluate_prev (p : Pixel) (s : State) : (evaluate p s).prev = s.prev := rfl

@[simp] theorem bubble_ports (s : State) : (bubble s).ports = s.ports := rfl
@[simp] theorem bubble_blendOut (s : State) : (bubble s).blendOut = settle s := rfl
@[simp] theorem bubble_stages (s : State) : (bubble s).stages = shiftIn ⟨false, settle s⟩ s.stages := rfl
@[simp] theorem bubble_draws (s : State) : (bubble s).draws = s.draws + 1 := rfl
@[simp] theorem bubble_feed (s : State) : (bubble s).feed = s.feed := rfl
@[simp] theorem bubble_inFlight (s : State) : (bubble s).inFlight = s.inFlight := rfl
@[simp] theorem bubble_prev (s : State) : (bubble s).prev = s.prev := rfl

@[simp] theorem resetEdge_ports (s : State) : (resetEdge s).ports = s.ports := rfl
@[simp] theorem resetEdge_blendOut (s : State) : (resetEdge s).blendOut = settle s := rfl
@[simp] theorem resetEdge_stages (s : State) : (resetEdge s).stages = clearStages s.draws 0 s.stages := rfl
@[simp] theorem resetEdge_draws (s : State) : (resetEdge s).draws = s.draws + 1 := rfl
@[simp] theorem resetEdge_feed (s : State) : (resetEdge s).feed = s.feed := rfl
@[simp] theorem resetEdge_inFlight (s : State) : (resetEdge s).inFlight = 0 := rfl
@[simp] theorem resetEdge_prev (s : State) : (resetEdge s).prev = if s.inFlight = 0 then s.prev else none := rfl

@[simp] theorem holdClock_ports (s : State) : (holdClock s).ports = s.ports := rfl
@[simp] theorem holdClock_blendOut (s : State) : (holdClock s).blendOut = settle s := rfl
@[simp] theorem holdClock_stages (s : State) : (holdClock s).stages = s.stages := rfl
@[simp] theorem holdClock_draws (s : State) : (holdClock s).draws = s.draws + 1 := rfl
@[simp] theorem holdClock_feed (s : State) : (holdClock s).feed = s.feed := rfl
@[simp] theorem holdClock_inFlight (s : State) : (holdClock s).inFlight = s.inFlight := rfl
@[simp] theorem holdClock_prev (s : State) : (holdClock s).prev = s.prev := rfl

@[simp] theorem issue_ports (s : State) : (issue s).ports = s.ports := rfl
@[simp] theorem issue_blendOut (s : State) : (issue s).blendOut = s.blendOut := rfl
@[simp] theorem issue_stages (s : State) : (issue s).stages = s.stages := rfl
@[simp] theorem issue_draws (s : State) : (issue s).draws = s.draws := rfl
@[simp] theorem issue_feed (s : State) : (issue s).feed = s.feed := rfl
@[simp] theorem issue_inFlight (s : State) : (issue s).inFlight = s.inFlight + 1 := rfl
@[simp] theorem issue_prev (s : State) : (issue s).prev = s.prev := rfl

@[simp] theorem withLines_ports (s : State) (p : Ports) : (s.withLines p).ports = s.ports := rfl
@[simp] theorem withLines_blendOut (s : State) (p : Ports) : (s.withLines p).blendOut = s.blendOut := rfl
@[simp] theorem withLines_stages (s : State) (p : Ports) : (s.withLines p).stages = s.stages := rfl
@[simp] theorem withLines_draws (s : State) (p : Ports) : (s.withLines p).draws = s.draws := rfl
@[simp] theorem withLines_feed (s : State) (p : Ports) : (s.withLines p).feed = .lines p :: s.feed := rfl
@[simp] theorem withLines_inFlight (s : State) (p : Ports) : (s.withLines p).inFlight = s.inFlight := rfl
@[simp] theorem withLines_prev (s : State) (p : Ports) : (s.withLines p).prev = s.prev := rfl

@[simp] theorem withProgram_ports (s : State) (l : List Evaluation) : (s.withProgram l).ports = s.ports := rfl
@[simp] theorem withProgram_blendOut (s : State) (l : List Evaluation) : (s.withProgram l).blendOut = s.blendOut := rfl
@[simp] theorem withProgram_stages (s : State) (l : List Evaluation) : (s.withProgram l).stages = s.stages := rfl
@[simp] theorem withProgram_draws (s : State) (l : List Evaluation) : (s.withProgram l).draws = s.draws := rfl
@[simp] theorem withProgram_feed (s : State) (l : List Evaluation) : (s.withProgram l).feed = l.map Cue.present := rfl
@[simp] theorem withProgram_inFlight (s : State) (l : List Evaluation) : (s.withProgram l).inFlight = s.inFlight := rfl
@[simp] theorem withProgram_prev (s : State) (l : List Evaluation) : (s.withProgram l).prev = s.prev := rfl

@[simp] theorem withFetchWord_ports (s : State) (n w : Nat) : (s.withFetchWord n w).ports = s.ports := rfl
@[simp] theorem withFetchWord_blendOut (s : State) (n w : Nat) : (s.withFetchWord n w).blendOut = s.blendOut := rfl
@[simp] theorem withFetchWord_stages (s : State) (n w : Nat) : (s.withFetchWord n w).stages = s.stages := rfl
@[simp] theorem withFetchWord_draws (s : State) (n w : Nat) : (s.withFetchWord n w).draws = s.draws := rfl
@[simp] theorem withFetchWord_feed (s : State) (n w : Nat) : (s.withFetchWord n w).feed = .lines (portsOf (fieldsOfTable (w % 2 ^ n))) :: s.feed := rfl
@[simp] theorem withFetchWord_inFlight (s : State) (n w : Nat) : (s.withFetchWord n w).inFlight = s.inFlight := rfl
@[simp] theorem withFetchWord_prev (s : State) (n w : Nat) : (s.withFetchWord n w).prev = s.prev := rfl

@[simp] theorem observe_ports (s : State) : (observe s).ports = s.ports := by
  unfold observe; split <;> rfl
@[simp] theorem observe_blendOut (s : State) : (observe s).blendOut = s.blendOut := by
  unfold observe; split <;> rfl
@[simp] theorem observe_stages (s : State) : (observe s).stages = s.stages := by
  unfold observe; split <;> rfl
@[simp] theorem observe_draws (s : State) : (observe s).draws = s.draws := by
  unfold observe; split <;> rfl
@[simp] theorem observe_feed (s : State) : (observe s).feed = s.feed := by
  unfold observe; split <;> rfl

theorem observe_of_result {s : State} (h : s.resultOnY = true) :
    observe s = { s with inFlight := s.inFlight - 1, prev := some s.y } := by
  simp [observe, h]

theorem observe_of_no_result {s : State} (h : s.resultOnY = false) : observe s = s := by
  simp [observe, h]

/-! ## The outputs -/

@[simp] theorem outValid_nil {s : State} (h : s.stages = []) : s.outValid = none := by
  simp [State.outValid, h]

theorem outValid_append {s : State} {older : List Stage} {last : Stage} (h : s.stages = older ++ [last]) :
    s.outValid = some last.v := by
  simp [State.outValid, h]

theorem y_nil {s : State} (h : s.stages = []) : s.y = s.blendOut := by
  simp [State.y, h]

theorem y_append {s : State} {older : List Stage} {last : Stage} (h : s.stages = older ++ [last])
    (hv : last.v = true) : s.y = last.d := by
  simp [State.y, h, hv]

theorem resultOnY_nil {s : State} (h : s.stages = []) : s.resultOnY = true := by
  simp [State.resultOnY, h]

theorem resultOnY_append {s : State} {older : List Stage} {last : Stage} (h : s.stages = older ++ [last]) :
    s.resultOnY = last.v := by
  simp [State.resultOnY, outValid_append h]

/-- Reading the outputs depends on the stages, the combinational output and the step count alone. -/
theorem y_congr {s t : State} (hs : s.stages = t.stages) (hb : s.blendOut = t.blendOut) (hd : s.draws = t.draws) :
    s.y = t.y := by
  simp [State.y, hs, hb, hd]

@[simp] theorem issue_y (s : State) : (issue s).y = s.y := rfl
@[simp] theorem issue_outValid (s : State) : (issue s).outValid = s.outValid := rfl
@[simp] theorem issue_resultOnY (s : State) : (issue s).resultOnY = s.resultOnY := rfl
@[simp] theorem observe_y (s : State) : (observe s).y = s.y := by
  apply y_congr <;> simp
@[simp] theorem observe_outValid (s : State) : (observe s).outValid = s.outValid := by
  simp [State.outValid]

end Sys2Proof.Machine
end

