-- ==== Sys2Proof/Laws/Ops.lean ====
section
/-! SUPPORT. What each shared operation can do, said once. -/

namespace Sys2Proof.Machine

/-! ## Lines -/

@[simp] theorem read_driven {w : Nat} (v : BitVec w) : (driven v).read = some v := by
  simp [Lines.read, driven]

/-- Reading a port answers its value exactly where every bit of it is defined. -/
theorem read_eq_some {w : Nat} {l : Lines w} {v : BitVec w} : l.read = some v ↔ l.undef = 0#w ∧ l.val = v := by
  unfold Lines.read; split <;> simp_all

theorem read_eq_none {w : Nat} {l : Lines w} : l.read = none ↔ l.undef ≠ 0#w := by
  unfold Lines.read; split <;> simp_all

/-- Defined lines sample as the evaluation their values decode to. -/
theorem sample_of_defined {p : Ports} (h : p.dataDefined) :
    sample p = some (decodeFields ⟨p.mode.val, p.a.val, p.b.val, p.coin.val⟩) := by
  obtain ⟨ha, hb, hm, hc⟩ := h
  simp [sample, Lines.read, ha, hb, hm, hc]

/-- Lines with an undefined bit sample as no evaluation. -/
theorem sample_of_undefined {p : Ports} (h : ¬ p.dataDefined) : sample p = none := by
  unfold sample
  split
  · rename_i hm ha hb hc
    exact absurd ⟨(read_eq_some.1 ha).1, (read_eq_some.1 hb).1, (read_eq_some.1 hm).1, (read_eq_some.1 hc).1⟩ h
  · rfl

theorem portsOf_dataDefined (f : Fields) : (portsOf f).dataDefined := ⟨rfl, rfl, rfl, rfl⟩

@[simp] theorem sample_portsOf (f : Fields) : sample (portsOf f) = some (decodeFields f) :=
  sample_of_defined (portsOf_dataDefined f)

/-! ## Stages -/

@[simp] theorem shiftIn_nil (new : Stage) : shiftIn new [] = [] := rfl

/-- A shift into a pipeline: `new` first, then all but the last of the old stages. -/
theorem shiftIn_of_ne_nil (new : Stage) {stages : List Stage} (h : stages ≠ []) :
    shiftIn new stages = new :: stages.dropLast := by
  cases stages with
  | nil => exact absurd rfl h
  | cons => rfl

@[simp] theorem length_shiftIn (new : Stage) (stages : List Stage) :
    (shiftIn new stages).length = stages.length := by
  simp [shiftIn]

@[simp] theorem length_clearStages (draw k : Nat) (stages : List Stage) :
    (clearStages draw k stages).length = stages.length := by
  induction stages generalizing k with
  | nil => rfl
  | cons _ _ ih => simp [clearStages, ih]

/-- No stage is valid after a reset edge. -/
theorem v_of_mem_clearStages {draw k : Nat} {stages : List Stage} {st : Stage}
    (h : st ∈ clearStages draw k stages) : st.v = false := by
  induction stages generalizing k with
  | nil => simp [clearStages] at h
  | cons _ _ ih =>
    simp only [clearStages, List.mem_cons] at h
    rcases h with rfl | h
    · rfl
    · exact ih h

/-! ## What happens at a step -/

/-- Everything an event can be, from the lines. -/
theorem eventOf_cases (s : State) :
    (∃ i, eventOf s = .evaluation i ∧ sample s.ports = some i ∧ (s.stages = [] ∨
        s.ports.clk.read = some 1 ∧ s.ports.rst.read = some 0 ∧ s.ports.inValid.read = some 1)) ∨
    (eventOf s = .bubble ∧ s.stages ≠ [] ∧
        s.ports.clk.read = some 1 ∧ s.ports.rst.read = some 0 ∧ s.ports.inValid.read = some 0) ∨
    (eventOf s = .reset ∧ s.stages ≠ [] ∧ s.ports.clk.read = some 1 ∧ s.ports.rst.read = some 1) ∨
    (eventOf s = .held ∧ s.stages ≠ [] ∧ s.ports.clk.read = some 0) ∨
    (∃ r, eventOf s = .undefined r) := by
  have bit : ∀ v : BitVec 1, v ≠ 1 → v = 0 := by decide
  unfold eventOf evaluationEvent
  split
  · split <;> simp_all
  · split
    · simp
    · split
      · split
        · simp
        · split
          · simp_all
          · split
            · simp
            · split
              · split
                · have := bit _ (by assumption)
                  simp_all
                · simp
              · have h1 := bit _ (by assumption)
                rename_i hr _ _ _ hv
                have h2 := bit _ hr
                simp_all
      · have := bit _ (by assumption)
        simp_all

/-- Lines that present an evaluation make it the event, with stages or without. -/
theorem eventOf_portsOf {s : State} {f : Fields} (h : s.ports = portsOf f) :
    eventOf s = .evaluation (decodeFields f) := by
  have clock : s.ports.clk = driven 1 ∧ s.ports.rst = driven 0 ∧ s.ports.inValid = driven 1 := by
    rw [h]; exact ⟨rfl, rfl, rfl⟩
  have sampled : evaluationEvent s.ports = .evaluation (decodeFields f) := by
    rw [h]; simp [evaluationEvent]
  simp [eventOf, clock, sampled]

/-- Lines that present nothing make a bubble in a pipeline. -/
theorem eventOf_idle {s : State} {p : Ports} (hs : s.stages ≠ []) (h : s.ports = p.idle) : eventOf s = .bubble := by
  have clock : s.ports.clk = driven 1 ∧ s.ports.rst = driven 0 ∧ s.ports.inValid = driven 0 := by
    rw [h]; exact ⟨rfl, rfl, rfl⟩
  simp [eventOf, hs, clock]

/-- The logic gives `Blend` of defined lines. -/
theorem settle_of_defined {s : State} (h : s.ports.dataDefined) :
    settle s = blendFields (encodeFields (decodeFields
      ⟨s.ports.mode.val, s.ports.a.val, s.ports.b.val, s.ports.coin.val⟩)) := by
  simp [settle, sample_of_defined h]

/-! ## The caller -/

/-- The caller's next cue, where it is to drive given lines. -/
@[simp] theorem drive_withLines (s : State) (p : Ports) :
    drive (s.withLines p) = .ok { s with ports := p } := rfl

/-- What an evaluation of a program presents, where both its operands stand for a pixel. -/
theorem resolve_eq_some {s : State} {e : Evaluation} {f : Fields} :
    resolve s e = some f ↔ operandPixel s.prev e.a = some f.a ∧ operandPixel s.prev e.b = some f.b ∧
      f.mode = modeNumber e.mode ∧ f.coin = coinValue s.draws e.coin := by
  obtain ⟨mode, a, b, coin⟩ := f
  unfold resolve
  split <;> simp_all
  grind

/-- When the harness waits. -/
theorem mustWait_eq_true {s : State} {e : Evaluation} :
    mustWait s e = true ↔ e.usesPrev = true ∧ s.inFlight ≠ 0 ∧ s.stages ≠ [] := by
  simp [mustWait, and_assoc]

/-- Applying a cue changes the lines and the feed alone. -/
theorem drive_ok {s t : State} (h : drive s = .ok t) :
    t.blendOut = s.blendOut ∧ t.stages = s.stages ∧ t.draws = s.draws ∧ t.inFlight = s.inFlight ∧ t.prev = s.prev := by
  unfold drive at h
  repeat' split at h
  all_goals first | (cases h; done) | (cases h; exact ⟨rfl, rfl, rfl, rfl, rfl⟩)

/-- A cue is refused only where it needs a previous result that there is not. -/
theorem drive_error {s : State} {r : Refusal} (h : drive s = .error r) : r = .noPreviousResult := by
  unfold drive at h
  repeat' split at h
  all_goals cases h
  rfl

end Sys2Proof.Machine
end

