-- ==== Sys2Proof/Laws/PerInstr.lean ====
section
/-! SUPPORT. What holds of every instruction as text: it is the one its own tuple decodes to. -/

namespace Sys2Proof.Laws.Rebuild

/-- An instruction is what the tuple it presents on the ports decodes to. -/
def Statement (i : Instr) : Prop := decodeFields (encodeFields i) = i

theorem add (a b : Pixel) (coin : Coin) : Statement (.add a b coin) := rfl
theorem subtract (a b : Pixel) (coin : Coin) : Statement (.subtract a b coin) := rfl
theorem addWrap (a b : Pixel) (coin : Coin) : Statement (.addWrap a b coin) := rfl
theorem subtractWrap (a b : Pixel) (coin : Coin) : Statement (.subtractWrap a b coin) := rfl
theorem multiply (a b : Pixel) (coin : Coin) : Statement (.multiply a b coin) := rfl
theorem dissolve (a b : Pixel) (coin : Coin) : Statement (.dissolve a b coin) := rfl
theorem average (a b : Pixel) (coin : Coin) : Statement (.average a b coin) := rfl
theorem set (a b : Pixel) (coin : Coin) : Statement (.set a b coin) := rfl
theorem screen (a b : Pixel) (coin : Coin) : Statement (.screen a b coin) := rfl
theorem lighten (a b : Pixel) (coin : Coin) : Statement (.lighten a b coin) := rfl
theorem darken (a b : Pixel) (coin : Coin) : Statement (.darken a b coin) := rfl
theorem difference (a b : Pixel) (coin : Coin) : Statement (.difference a b coin) := rfl
theorem overlay (a b : Pixel) (coin : Coin) : Statement (.overlay a b coin) := rfl
theorem colorDodge (a b : Pixel) (coin : Coin) : Statement (.colorDodge a b coin) := rfl
theorem rsv14 (a b : Pixel) (coin : Coin) : Statement (.rsv14 a b coin) := rfl
theorem rsv15 (a b : Pixel) (coin : Coin) : Statement (.rsv15 a b coin) := rfl

end Sys2Proof.Laws.Rebuild
end

