-- ==== Sys2Proof/Laws/Step.lean ====
section
/-! SUPPORT. What an instruction and a step can do, said once. -/

namespace Sys2Proof.Machine

/-- Every instruction is one evaluation whose result is `Blend` of its tuple. -/
theorem exec_eq_evaluate (i : Instr) (s : State) :
    exec i s = .next (evaluate (blendFields (encodeFields i)) s) := by
  cases i <;> rfl

/-- A tuple is the one its instruction presents. -/
@[simp] theorem encodeFields_decodeFields (f : Fields) : encodeFields (decodeFields f) = f := by
  have table : ∀ (m : ModeNumber) (a b : Pixel) (c : Coin), encodeFields (decodeFields ⟨m, a, b, c⟩) = ⟨m, a, b, c⟩ := by
    intro m a b c
    have h : ∀ m : ModeNumber, modeNumber (modeOfNumber m) = m := by decide
    have e : ∀ k : Mode, encodeFields (instrOf k a b c) = ⟨modeNumber k, a, b, c⟩ := by
      intro k; cases k <;> rfl
    rw [decodeFields, e, h]
  exact table f.mode f.a f.b f.coin

/-- The logic gives `Blend` of defined lines. -/
theorem settle_eq_blended {s : State} (h : s.ports.dataDefined) : settle s = s.ports.blended := by
  rw [settle_of_defined h, encodeFields_decodeFields]; rfl

/-- The evaluation sampled from the lines gives `Blend` of them. -/
theorem blendFields_of_sample {p : Ports} {i : Instr} (h : sample p = some i) :
    p.dataDefined ∧ blendFields (encodeFields i) = p.blended := by
  have hd : p.dataDefined := by
    by_contra hn; rw [sample_of_undefined hn] at h; cases h
  rw [sample_of_defined hd] at h
  cases h
  exact ⟨hd, by rw [encodeFields_decodeFields]; rfl⟩

/-- Everything a step that answers can do: the caller applies its cue, then the block evaluates, shifts in a bubble, is
reset, or keeps still. -/
theorem step_next {s t : State} (h : step s = .next t) :
    ∃ u, drive s = .ok u ∧
      ((∃ i, eventOf u = .evaluation i ∧ t = observe (issue (evaluate (blendFields (encodeFields i)) u))) ∨
       (eventOf u = .bubble ∧ t = observe (bubble u)) ∨
       (eventOf u = .reset ∧ t = resetEdge u) ∨
       (eventOf u = .held ∧ t = holdClock u)) := by
  unfold step at h
  split at h
  · cases h
  · rename_i u hu
    refine ⟨u, hu, ?_⟩
    split at h
    · rename_i i hi
      rw [exec_eq_evaluate] at h
      cases h
      exact .inl ⟨i, hi, rfl⟩
    · cases h; exact .inr (.inl ⟨by assumption, rfl⟩)
    · cases h; exact .inr (.inr (.inl ⟨by assumption, rfl⟩))
    · cases h; exact .inr (.inr (.inr ⟨by assumption, rfl⟩))
    · cases h

/-- The step at which the caller drives lines that present an evaluation. -/
theorem step_of_evaluation {s u : State} {i : Instr} (hd : drive s = .ok u) (he : eventOf u = .evaluation i) :
    step s = .next (observe (issue (evaluate (blendFields (encodeFields i)) u))) := by
  simp [step, hd, he, exec_eq_evaluate, afterEvaluation]

end Sys2Proof.Machine
end

