-- ==== Sys2Proof/Tests/Slice0.lean ====
section
/-! SUPPORT. The model's own tests. Expected words and results are those of spec/95_test_vectors.md and of the rules'
examples; each theorem names the vector. The witnesses show that a statement's hypotheses can be met. -/

namespace Sys2Proof.Tests

open Sys2Proof.Machine

/-! ## Source lines: each check refuses its ill-formed term -/

theorem test_wf_hex_over_24_bits : (SourceOperand.hex 0x1000000).wellFormed = false := by decide
theorem test_wf_triple_over_255 : (SourceOperand.triple 0 256 0).wellFormed = false := by decide
theorem test_wf_coin_over_1 : (SourceLine.mk .dissolve (.hex 0) (.hex 0) (some 2)).wellFormed = false := by decide
theorem test_wf_operand_b : (SourceLine.mk .add (.hex 0) (.triple 0 0 999) none).wellFormed = false := by decide
theorem test_wf_first_line_uses_prev : programWellFormed [⟨.add, .prev, .hex 0, none⟩] = false := by decide
theorem test_wf_accepts_program :
    programWellFormed [⟨.add, .hex 0x102030, .triple 200 100 50, none⟩, ⟨.multiply, .prev, .hex 0x808080, some 1⟩]
      = true := by decide

/-! ## Decoding: each word written out from 30_encoding.md R45, `C M AAAAAA BBBBBB` -/

/-- V3. -/
theorem test_decode_add : decode 0x0080FF017F01FE = .add 0x80FF01 0x7F01FE 0 := by decide
/-- V7. -/
theorem test_decode_subtract : decode 0x01807F107F8010 = .subtract 0x807F10 0x7F8010 0 := by decide
/-- V8. -/
theorem test_decode_add_wrap : decode 0x02FAFAFAFAFAFA = .addWrap 0xFAFAFA 0xFAFAFA 0 := by decide
/-- V11. -/
theorem test_decode_subtract_wrap : decode 0x03000000FF0164 = .subtractWrap 0x000000 0xFF0164 0 := by decide
/-- V15. -/
theorem test_decode_multiply : decode 0x04FF8001FFFFFF = .multiply 0xFF8001 0xFFFFFF 0 := by decide
/-- DV2. -/
theorem test_decode_dissolve : decode 0x15FF000000FF00 = .dissolve 0xFF0000 0x00FF00 1 := by decide
/-- V18. -/
theorem test_decode_average : decode 0x0600FF0001FEFF = .average 0x00FF00 0x01FEFF 0 := by decide
/-- V19. -/
theorem test_decode_set : decode 0x07123456ABCDEF = .set 0x123456 0xABCDEF 0 := by decide
/-- V22. -/
theorem test_decode_screen : decode 0x087FFE0000FF00 = .screen 0x7FFE00 0x00FF00 0 := by decide
/-- V25. -/
theorem test_decode_lighten : decode 0x097F80FE807FFE = .lighten 0x7F80FE 0x807FFE 0 := by decide
/-- V27. -/
theorem test_decode_darken : decode 0x0A7B2D99FFFFFF = .darken 0x7B2D99 0xFFFFFF 0 := by decide
/-- V28. -/
theorem test_decode_difference : decode 0x0B00FF7FFF0080 = .difference 0x00FF7F 0xFF0080 0 := by decide
/-- V32. -/
theorem test_decode_overlay : decode 0x0C7F8080FFFF80 = .overlay 0x7F8080 0xFFFF80 0 := by decide
/-- V36. -/
theorem test_decode_color_dodge : decode 0x0D0102FFFEFEFE = .colorDodge 0x0102FF 0xFEFEFE 0 := by decide
/-- FV3. -/
theorem test_decode_rsv14 : decode 0x0E102030405060 = .rsv14 0x102030 0x405060 0 := by decide
/-- FV2. -/
theorem test_decode_rsv15 : decode 0x1FFAFAFAFAFAFA = .rsv15 0xFAFAFA 0xFAFAFA 1 := by decide

theorem test_decode_bytes :
    decodeBytes [0x15, 0xFA, 0x64, 0x00, 0xFA, 0xC8, 0x1E] = .ok (.dissolve 0xFA6400 0xFAC81E 1) := by rfl
theorem test_decode_bytes_coin_digit : decodeBytes [0x25, 0, 0, 0, 0, 0, 0] = .error .coinDigit := by rfl
theorem test_decode_bytes_length : decodeBytes [0x15, 0xFA] = .error .notFourteenDigits := by rfl
/-- The table's rows give the mode alone; every other bit is 0. -/
theorem test_decode_table_row : decodeTableWord 8 0xD = some (.colorDodge 0 0 0) := by decide
theorem test_decode_table_operands :
    decodeTableWord 56 (5 + 0xFA6400 * 2 ^ 4 + 0xFAC81E * 2 ^ 28 + 2 ^ 52) = some (.dissolve 0xFA6400 0xFAC81E 1) := by
  decide
theorem test_decode_table_too_long : decodeTableWord 56 (2 ^ 53) = none := by decide

/-! ## Meanings, one step each on the reset state -/

/-- `y` after one instruction, with `BLEND_LATENCY` = 0. -/
def yAfter (i : Instr) : Option Pixel :=
  match exec i State.reset with
  | .next t => some t.y
  | _ => none

/-- V3 and the rule's example. -/
theorem test_exec_add : yAfter (.add 0x80FF01 0x7F01FE 0) = some 0xFFFFFF ∧
    yAfter (.add 0xFA6400 0xFAC81E 0) = some 0xFFFF1E := by decide
/-- V7 and the rule's example. -/
theorem test_exec_subtract : yAfter (.subtract 0x807F10 0x7F8010 0) = some 0x010000 ∧
    yAfter (.subtract 0xFA6400 0xFAC81E 0) = some 0x000000 := by decide
/-- V8 and the rule's example. -/
theorem test_exec_add_wrap : yAfter (.addWrap 0xFAFAFA 0xFAFAFA 0) = some 0xF4F4F4 ∧
    yAfter (.addWrap 0xFA6400 0xFAC81E 0) = some 0xF42C1E := by decide
/-- V11 and the rule's example. -/
theorem test_exec_subtract_wrap : yAfter (.subtractWrap 0x000000 0xFF0164 0) = some 0x01FF9C ∧
    yAfter (.subtractWrap 0xFA6400 0xFAC81E 0) = some 0x009CE2 := by decide
/-- V15 and the rule's example. -/
theorem test_exec_multiply : yAfter (.multiply 0xFF8001 0xFFFFFF 0) = some 0xFE7F00 ∧
    yAfter (.multiply 0xFA6400 0xFAC81E 0) = some 0xF44E00 := by decide
/-- DV2. -/
theorem test_exec_dissolve : yAfter (.dissolve 0xFF0000 0x00FF00 1) = some 0x00FF00 := by decide
/-- V18 and the rule's example. -/
theorem test_exec_average : yAfter (.average 0x00FF00 0x01FEFF 0) = some 0x00FE7F ∧
    yAfter (.average 0xFA6400 0xFAC81E 0) = some 0xFA960F := by decide
/-- V19 and the rule's example. -/
theorem test_exec_set : yAfter (.set 0x123456 0xABCDEF 0) = some 0xABCDEF ∧
    yAfter (.set 0xFA6400 0xFAC81E 0) = some 0xFAC81E := by decide
/-- V22 and the rule's example. -/
theorem test_exec_screen : yAfter (.screen 0x7FFE00 0x00FF00 0) = some 0x80FF01 ∧
    yAfter (.screen 0xFA6400 0xFAC81E 0) = some 0xFFDE1F := by decide
/-- V25 and the rule's example. -/
theorem test_exec_lighten : yAfter (.lighten 0x7F80FE 0x807FFE 0) = some 0x8080FE ∧
    yAfter (.lighten 0xFA6400 0xFAC81E 0) = some 0xFAC81E := by decide
/-- V27 and the rule's example. -/
theorem test_exec_darken : yAfter (.darken 0x7B2D99 0xFFFFFF 0) = some 0x7B2D99 ∧
    yAfter (.darken 0xFA6400 0xFAC81E 0) = some 0xFA6400 := by decide
/-- V28 and the rule's example. -/
theorem test_exec_difference : yAfter (.difference 0x00FF7F 0xFF0080 0) = some 0xFFFF01 ∧
    yAfter (.difference 0xFA6400 0xFAC81E 0) = some 0x00641E := by decide
/-- V32 and the rule's example. -/
theorem test_exec_overlay : yAfter (.overlay 0x7F8080 0xFFFF80 0) = some 0xFDFF81 ∧
    yAfter (.overlay 0xFA6400 0xFAC81E 0) = some 0xFF9C00 := by decide
/-- V36 and the rule's example. -/
theorem test_exec_color_dodge : yAfter (.colorDodge 0x0102FF 0xFEFEFE 0) = some 0xFFFFFF ∧
    yAfter (.colorDodge 0xFA6400 0xFAC81E 0) = some 0xFFFF00 := by decide
/-- FV3 and the rule's example. -/
theorem test_exec_rsv14 : yAfter (.rsv14 0x102030 0x405060 0) = some 0x507090 ∧
    yAfter (.rsv14 0xFA6400 0xFAC81E 0) = some 0xFFFF1E := by decide
/-- FV2. -/
theorem test_exec_rsv15 : yAfter (.rsv15 0xFAFAFA 0xFAFAFA 1) = some 0xFFFFFF := by decide

/-! ## The step -/

/-- The state a step answers, if it answers. -/
def after (s : State) : Option State :=
  match step s with
  | .next t => some t
  | _ => none

/-- Why a step is refused, if it is. -/
def refusal (s : State) : Option Refusal :=
  match step s with
  | .refused r => some r
  | _ => none

/-- A pipeline of the given stages, the last result read or lost. -/
def pipe (stages : List Stage) (inFlight : Nat) (feed : List Cue) : State :=
  { State.reset with stages, inFlight, feed }

/-- The lines of an edge with reset; the other lines are undefined (95_test_vectors.md 2.6, edge e0). -/
def resetLines : Ports :=
  { a := ⟨0, 0xFFFFFF⟩, b := ⟨0, 0xFFFFFF⟩, mode := ⟨0, 0xF⟩, coin := ⟨0, 1⟩,
    clk := driven 1, rst := driven 1, inValid := ⟨0, 1⟩ }

/-- The tuple of `ADD 0x102030, 0xC86432` (95_test_vectors.md P1, step 1, and 2.6, edge e1). -/
def addFields : Fields := ⟨0, 0x102030, 0xC86432, 0⟩

theorem test_step_runs_fetch_word :
    (after (State.reset.withFetchWord 56 (12 + 0xFA6400 * 2 ^ 4 + 0xFAC81E * 2 ^ 28))).map State.y = some 0xFF9C00 := by
  decide
theorem test_step_from_reset_holds_inputs : (after State.reset).map State.y = some 0 := by decide
/-- 2.6, edge e0. -/
theorem test_reset_edge :
    (after (pipe [⟨true, 1⟩, ⟨true, 2⟩] 1 [.lines resetLines])).map (fun t => (t.stages.map Stage.v, t.outValid)) =
      some ([false, false], some false) := by decide
/-- 2.6, edge e1. -/
theorem test_evaluation_edge :
    (after (pipe [⟨false, 1⟩, ⟨false, 2⟩] 0 [.lines (portsOf addFields)])).map
      (fun t => (t.stages, t.outValid, t.inFlight)) =
      some ([⟨true, 0xD88462⟩, ⟨false, 1⟩], some false, 1) := by decide
/-- 2.6, edge e2: the harness presents nothing and reads the result. -/
theorem test_bubble_edge :
    (after (pipe [⟨true, 0xD88462⟩, ⟨false, 1⟩] 1 [])).map (fun t => (t.outValid, t.y, t.inFlight, t.prev)) =
      some (some true, 0xD88462, 0, some 0xD88462) := by decide
/-- 2.6, edge e3: `MULTIPLY @, 0x808080`. -/
theorem test_chained_evaluation_edge :
    (after (observe (pipe [⟨false, 0⟩, ⟨true, 0xD88462⟩] 1
      [.present ⟨.multiply, .prev, .pixel 0x808080, .given 0⟩]))).map (fun t => t.stages.map Stage.result) = some [some 0x6C4231, none] := by decide
/-- Edge e2 with the chained evaluation waiting. -/
theorem test_harness_waits :
    (after (pipe [⟨true, 0xD88462⟩, ⟨false, 1⟩] 1 [.present ⟨.multiply, .prev, .pixel 0x808080, .given 0⟩])).map
      (fun t => (t.feed.length, t.stages.map Stage.result)) = some (1, [none, some 0xD88462]) := by decide
theorem test_stopped_clock_holds_stages :
    (after (pipe [⟨true, 5⟩] 0 [.lines { resetLines with clk := driven 0 }])).map State.stages =
      some [⟨true, 5⟩] := by decide
/-- P1, step 2, with `BLEND_LATENCY` = 0. -/
theorem test_chained_evaluation :
    (after { observe { State.reset with blendOut := 0xD88462 } with
        feed := [.present ⟨.multiply, .prev, .pixel 0x808080, .given 0⟩] }).map State.y = some 0x6C4231 := by decide
theorem test_undefined_input_refused :
    refusal (State.reset.withLines { portsOf addFields with a := ⟨0x102030, 0x000001⟩ }) = some .undefinedInput := by
  decide
theorem test_undefined_control_refused :
    refusal (pipe [⟨false, 0⟩] 0 [.lines { portsOf addFields with rst := ⟨0, 1⟩ }]) = some .undefinedControl := by decide
theorem test_prev_without_result_refused :
    refusal { State.reset with feed := [.present ⟨.add, .prev, .pixel 0, .given 0⟩] } = some .noPreviousResult := by
  decide

/-! ## The notation of 30_encoding.md R46 -/

theorem test_parse_line :
    parseLine ['B', 'L', 'E', 'N', 'D', '.', 'S', 'E', 'T', ' ', '(', '2', '5', '0', ',', '1', '0', '0', ',', '0', ')',
      ',', ' ', '0', 'x', 'F', 'A', 'C', '8', '1', 'E'] =
      some ⟨.set, .triple 250 100 0, .hex 0xFAC81E, none⟩ := by decide
theorem test_parse_rejects_unknown_mnemonic :
    parseLine ['B', 'L', 'E', 'N', 'D', '.', 'N', 'O', 'P', ' ', '@', ',', ' ', '@'] = none := by decide
theorem test_assemble_coin_omitted :
    assemble ⟨.dissolve, .triple 250 100 0, .prev, none⟩ =
      some ⟨.dissolve, .pixel 0xFA6400, .prev, .given 0⟩ := by decide
/-- P1 as source lines. -/
theorem test_assemble_program :
    assembleProgram [⟨.add, .hex 0x102030, .hex 0xC86432, none⟩, ⟨.multiply, .prev, .hex 0x808080, none⟩] =
      some [⟨.add, .pixel 0x102030, .pixel 0xC86432, .given 0⟩,
        ⟨.multiply, .prev, .pixel 0x808080, .given 0⟩] := by decide
/-- A triple at both ends of its range, `@`, no coin: `BLEND.SET (0,100,255), @`. -/
theorem test_print_line :
    printLine ⟨.set, .triple 0 100 255, .prev, none⟩ =
      ['B', 'L', 'E', 'N', 'D', '.', 'S', 'E', 'T', ' ', '(', '0', ',', '1', '0', '0', ',', '2', '5', '5', ')', ',', ' ',
       '@'] := by decide
/-- A disassembler prints mode 15 as `BLEND.RSV15`. -/
theorem test_disassemble_rsv15 :
    disassemble (.rsv15 0x00FF40 0x010101 1) =
      ['B', 'L', 'E', 'N', 'D', '.', 'R', 'S', 'V', '1', '5', ' ', '0', 'x', '0', '0', 'F', 'F', '4', '0', ',', ' ',
       '0', 'x', '0', '1', '0', '1', '0', '1', ',', ' ', '1'] := by decide

/-! ## Witnesses: the hypotheses of the statements are met, at the ends of their ranges -/

theorem witness_AddSaturatesEachChannel : 255 ≤ (128 : Channel).toNat + (127 : Channel).toNat := by decide
theorem witness_SubtractSaturatesEachChannel : (0 : Channel).toNat ≤ (0 : Channel).toNat ∧
    (127 : Channel).toNat ≤ (128 : Channel).toNat := by decide
theorem witness_UndefinedModesFallBackToAdd : 14 ≤ 14 ∧ 14 ≤ 255 := by decide
theorem witness_MultiplyShiftsProductByEight : 1 ≤ (1 : Channel).toNat ∧ 1 ≤ (255 : Channel).toNat := by decide
theorem witness_ScreenInvertsProductOfInverses : (0 : Channel).toNat ≤ 254 ∧ (254 : Channel).toNat ≤ 254 := by decide
theorem witness_OverlayGatedOnBase : (127 : Channel).toNat ≤ 127 ∧ 128 ≤ (128 : Channel).toNat ∧
    ((127 : Channel).toNat ≤ 127 ∨ (127 : Channel) = 255) := by decide
theorem witness_ColorDodgeGuardedOnBlend : (254 : Channel) ≠ 255 ∧ (254 : Channel).toNat ≤ 254 ∧
    1 ≤ (1 : Channel).toNat := by decide
theorem witness_AdditiveFamilyLaws : 0 ∈ [0, 1, 2, 3, 14, 15] ∧ 15 ∈ [0, 1, 2, 3, 14, 15] ∧ 2 ∈ [0, 2] := by decide
theorem witness_MultiplySelectFamilyLaws : 4 ∈ [4, 6] ∧ 7 ∈ [4, 6, 7] ∧ 1 ≤ (1 : Channel).toNat ∧ 4 ≠ 5 ∧ 6 ≠ 5 := by
  decide
theorem witness_ScreenMinMaxFamilyLaws : 9 ∈ [9, 10] ∧ 8 ∈ [8, 11] ∧ (254 : Channel).toNat ≤ 254 ∧ 13 < 14 := by decide
theorem witness_FormulasStayInChannelRange :
    (∃ f ∈ [addFormula, subtractFormula, addWrapFormula, subtractWrapFormula, multiplyFormula, averageFormula,
      screenFormula, lightenFormula, darkenFormula, differenceFormula, overlayFormula, colorDodgeFormula],
      f 255 255 = 255) ∧ (0 : Int) ≤ 0 ∧ (0 : Int) ≤ 255 ∧ (255 : Int) ≤ 255 :=
  ⟨⟨addFormula, .head _, by decide⟩, by decide⟩
theorem witness_EveryModeDeliversBlend : 14 ≤ 14 := by decide
theorem witness_OnlyDissolveReadsCoin : (Fields.mk 4 0 0 1).mode ≠ 5 ∧ (Fields.mk 6 0 0 0).mode ≠ 5 := by decide
theorem witness_HexDigitsDecode : decodeBytes [0x1F, 0, 0, 0, 0, 0, 0] = .ok (.rsv15 0 0 1) := by rfl
theorem witness_DisassemblyIsReadBack : disassemble (.add 0 0 0) = disassemble (.add 0 0 0) := rfl
theorem witness_SourceLinesAreReadAndAssembled :
    (SourceLine.mk .dissolve (.triple 0 255 9) .prev (some 1)).wellFormed = true ∧
      (SourceLine.mk .add (.hex 0xFFFFFF) (.hex 0) none).wellFormed = true ∧
      assemble ⟨.dissolve, .triple 0 255 9, .prev, some 1⟩ = some ⟨.dissolve, .pixel 0x00FF09, .prev, .given 1⟩ ∧
      assembleProgram [⟨.add, .hex 0xFFFFFF, .hex 0, none⟩] =
        some [⟨.add, .pixel 0xFFFFFF, .pixel 0, .given 0⟩] := by decide
theorem witness_FetchWordRunsNext : decodeTableWord 8 15 = some (.rsv15 0 0 0) := by decide
theorem witness_CombinationalOutputIsBlend : State.reset.stages = [] ∧ (portsOf addFields).dataDefined :=
  ⟨rfl, portsOf_dataDefined _⟩
theorem witness_StepRunsDecodedInstruction : State.reset.stages = [] := rfl
theorem witness_PipelineEdges_reset :
    (pipe [⟨true, 1⟩] 0 []).stages ≠ [] ∧ resetLines.clk = driven 1 ∧ resetLines.rst = driven 1 := by decide
theorem witness_PipelineEdges_evaluation :
    (portsOf addFields).clk = driven 1 ∧ (portsOf addFields).rst = driven 0 ∧ (portsOf addFields).dataDefined ∧
      (portsOf addFields).inValid = driven 1 ∧ ((portsOf addFields).idle).inValid = driven 0 ∧
      ((portsOf addFields).idle).dataDefined :=
  ⟨rfl, rfl, portsOf_dataDefined _, rfl, rfl, portsOf_dataDefined _⟩
theorem witness_PipelineEdges_stopped :
    (pipe [⟨true, 1⟩] 0 []).stages ≠ [] ∧ ({ resetLines with clk := driven 0 } : Ports).clk = driven 0 := by decide
theorem witness_PipelineEdges_outputs :
    (pipe [⟨false, 1⟩, ⟨true, 2⟩] 0 []).stages = [⟨false, 1⟩] ++ [⟨true, 2⟩] ∧ (Stage.mk true 2).v = true := by decide
theorem witness_ResetEmptiesPipeline :
    (pipe [⟨true, 1⟩] 0 []).stages ≠ [] ∧ resetLines.clk = driven 1 ∧ resetLines.rst = driven 1 ∧
      EdgeRun (resetEdge (pipe [⟨true, 1⟩] 0 [])) [] (resetEdge (pipe [⟨true, 1⟩] 0 [])) :=
  ⟨by decide, by decide, by decide, .refl _⟩
theorem witness_ResetValues : 1 ≤ 1 := by decide
theorem witness_StepKeepsInvariant :
    BlockInv State.reset ∧ ∃ t, step State.reset = .next t :=
  ⟨⟨fun _ => by decide, by decide⟩, _, rfl⟩
theorem witness_StepKeepsLatency : ∃ t, step (pipe [⟨false, 1⟩] 0 []) = .next t := ⟨_, rfl⟩

/-- The lines of edge e1 with the clock stopped. -/
def stoppedLines : Ports := { portsOf addFields with clk := driven 0 }

/-- A pipeline of two stages before 95_test_vectors.md 2.6, edge e1, its old data arbitrary; after the edge the clock
is to stop for a step. -/
def beforeEdges (x y : Pixel) : State :=
  pipe [⟨false, x⟩, ⟨false, y⟩] 0 [.lines (portsOf addFields), .lines stoppedLines]

/-- The same after edge e1. -/
def afterFirstEdge (x : Pixel) : State :=
  { pipe [⟨true, 0xD88462⟩, ⟨false, x⟩] 1 [.lines stoppedLines] with
    ports := portsOf addFields
    blendOut := 0xD88462
    draws := 2 }

/-- The same while the clock is stopped. -/
def afterStop (x : Pixel) : State :=
  { afterFirstEdge x with ports := stoppedLines, draws := 3, feed := [] }

/-- The same after edge e2. -/
def afterSecondEdge : State :=
  { pipe [⟨false, 0xD88462⟩, ⟨true, 0xD88462⟩] 0 [] with
    ports := (portsOf addFields).idle
    blendOut := 0xD88462
    draws := 4
    prev := some 0xD88462 }

theorem test_first_edge (x y : Pixel) : step (beforeEdges x y) = .next (afterFirstEdge x) := by
  have event : eventOf { beforeEdges x y with ports := portsOf addFields, feed := [.lines stoppedLines] } =
      .evaluation (decodeFields addFields) := eventOf_portsOf rfl
  have result : blendFields (encodeFields (decodeFields addFields)) = 0xD88462 := by decide
  rw [step_of_evaluation rfl event, result]
  rfl

theorem test_stop (x : Pixel) : step (afterFirstEdge x) = .next (afterStop x) := by
  have result : settle { afterFirstEdge x with ports := stoppedLines, feed := [] } = 0xD88462 := by
    rw [settle_eq_blended (portsOf_dataDefined addFields)]
    show stoppedLines.blended = _
    decide
  have stopped : step (afterFirstEdge x) =
      .next (holdClock { afterFirstEdge x with ports := stoppedLines, feed := [] }) := rfl
  rw [stopped, holdClock, result]
  rfl

theorem test_second_edge (x : Pixel) : step (afterStop x) = .next afterSecondEdge := by
  have result : settle { afterStop x with ports := (portsOf addFields).idle } = 0xD88462 := by
    rw [settle_eq_blended (portsOf_dataDefined addFields)]
    show (portsOf addFields).blended = _
    decide
  have bubbled : step (afterStop x) =
      .next (observe (bubble { afterStop x with ports := (portsOf addFields).idle })) := rfl
  rw [bubbled, bubble, result]
  rfl

/-- Two edges with the clock stopped for a step between them. -/
theorem edgeRun_two (x y : Pixel) : EdgeRun (beforeEdges x y) [none, some 0xD88462] afterSecondEdge := by
  have first : (afterFirstEdge x).ports.presented = some 0xD88462 := by
    show (portsOf addFields).presented = _
    decide
  have second : afterSecondEdge.ports.presented = none := by decide
  rw [← first, ← second]
  exact .edge (.held (.edge (.refl _) (test_first_edge x y) rfl rfl) (test_stop x) rfl) (test_second_edge x) rfl rfl

theorem witness_StagesHoldLatestInputs :
    (beforeEdges 1 2).stages ≠ [] ∧ EdgeRun (beforeEdges 1 2) [none, some 0xD88462] afterSecondEdge :=
  ⟨by decide, edgeRun_two 1 2⟩
theorem witness_ResultsLeaveInOrderAfterLatency :
    (beforeEdges 1 2).stages ≠ [] ∧ EdgeRun (beforeEdges 1 2) [none, some 0xD88462] afterSecondEdge ∧
      [none, some (0xD88462 : Pixel)][(beforeEdges 1 2).stages.length - 1]? = some (some 0xD88462) :=
  ⟨by decide, edgeRun_two 1 2, by decide⟩
theorem witness_OutputsForgetOlderState :
    (beforeEdges 1 2).stages ≠ [] ∧ (beforeEdges 1 2).stages.length = (beforeEdges 3 4).stages.length ∧
      (beforeEdges 1 2).stages.length ≤ [none, some (0xD88462 : Pixel)].length ∧
      EdgeRun (beforeEdges 1 2) [none, some 0xD88462] afterSecondEdge ∧
      EdgeRun (beforeEdges 3 4) [none, some 0xD88462] afterSecondEdge :=
  ⟨by decide, by decide, by decide, edgeRun_two 1 2, edgeRun_two 3 4⟩
theorem witness_SameInputsSameOutput :
    State.reset.stages = [] ∧ { State.reset with prev := some 7 }.stages = [] ∧ (portsOf addFields).dataDefined :=
  ⟨rfl, rfl, portsOf_dataDefined _⟩
theorem witness_NoException :
    (portsOf addFields).allDefined ∧ (0 : Int) ≤ 254 ∧ (254 : Int) ≤ 255 ∧ (254 : Int) ≠ 255 ∧
      chan 0xFF00FE .r = 255 ∧ chan 0xFF00FE .b ≠ 255 :=
  ⟨⟨portsOf_dataDefined _, rfl, rfl, rfl⟩, by decide⟩

/-- Given lines, no stage: an undefined bit of `a` is refused. -/
theorem witness_RefusesExactlyUndefinedInputs_noStage :
    State.reset.stages = [] ∧
      (State.reset.withLines { portsOf addFields with a := ⟨0x102030, 0x800000⟩ }).feed =
        .lines { portsOf addFields with a := ⟨0x102030, 0x800000⟩ } :: [] ∧
      refusal (State.reset.withLines { portsOf addFields with a := ⟨0x102030, 0x800000⟩ }) = some .undefinedInput := by
  decide
/-- Given lines, with stages: the clock undefined; an edge without reset that samples an undefined bit; the same
undefined bit where the clock is stopped, or reset. -/
theorem witness_RefusesExactlyUndefinedInputs_stages :
    refusal (pipe [⟨false, 0⟩] 0 [.lines { portsOf addFields with clk := ⟨1, 1⟩ }]) = some .undefinedControl ∧
    refusal (pipe [⟨false, 0⟩] 0 [.lines { portsOf addFields with inValid := ⟨1, 1⟩ }]) = some .undefinedControl ∧
    refusal (pipe [⟨false, 0⟩] 0 [.lines { portsOf addFields with coin := ⟨0, 1⟩ }]) = some .undefinedInput ∧
    refusal (pipe [⟨false, 0⟩] 0 [.lines { resetLines with clk := driven 0 }]) = none ∧
    refusal (pipe [⟨false, 0⟩] 0 [.lines resetLines]) = none := by decide
/-- A presented `@` with nothing read: refused with nothing awaited; not while the harness waits. -/
theorem witness_RefusesExactlyUndefinedInputs_program :
    refusal (pipe [⟨false, 0⟩] 0 [.present ⟨.add, .prev, .prev, .drawn⟩]) = some .noPreviousResult ∧
    refusal (pipe [⟨true, 0⟩, ⟨false, 0⟩] 1 [.present ⟨.add, .prev, .prev, .drawn⟩]) = none := by decide
/-- Nothing left: the held lines are sampled with no stage, and not with one. -/
theorem witness_RefusesExactlyUndefinedInputs_nothingLeft :
    refusal { State.reset with ports := resetLines } = some .undefinedInput ∧
    refusal { pipe [⟨false, 0⟩] 0 [] with ports := resetLines } = none := by decide

/-- Defined lines, then `@` in both positions with a drawn coin. -/
theorem witness_ChainedEvaluationReadsPreviousY_lines :
    State.reset.stages = [] ∧ (portsOf addFields).dataDefined ∧
      { State.reset with feed := [.lines (portsOf addFields), .present ⟨.dissolve, .prev, .prev, .drawn⟩] }.feed =
        .lines (portsOf addFields) :: .present ⟨.dissolve, .prev, .prev, .drawn⟩ :: [] :=
  ⟨rfl, portsOf_dataDefined _, rfl⟩
/-- A presented evaluation with `@`, which has a value, then another. -/
theorem witness_ChainedEvaluationReadsPreviousY_program :
    State.reset.stages = [] ∧ (Evaluation.mk .add .prev (.pixel 1) (.given 0)).usesPrev = true ∧
      { State.reset with prev := some 7 }.prev ≠ none ∧
      (State.withProgram { State.reset with prev := some 7 }
        [⟨.add, .prev, .pixel 1, .given 0⟩, ⟨.set, .pixel 1, .prev, .drawn⟩]).feed =
        .present ⟨.add, .prev, .pixel 1, .given 0⟩ :: .present ⟨.set, .pixel 1, .prev, .drawn⟩ :: [] := by decide
/-- A program whose second evaluation has `@` in both positions: Add of `0x102030` and `0x0100FF`, then `@` with `@`. -/
theorem test_chained_both_positions :
    ((after (State.reset.withProgram
        [⟨.add, .pixel 0x102030, .pixel 0x0100FF, .given 0⟩, ⟨.add, .prev, .prev, .drawn⟩])).bind after).map State.y =
      some 0x2240FF := by decide
theorem witness_HarnessWaitsForPreviousResult :
    (pipe [⟨true, 1⟩, ⟨false, 2⟩] 1 [.present ⟨.add, .pixel 0, .prev, .given 0⟩]).stages ≠ [] ∧
      (pipe [⟨true, 1⟩, ⟨false, 2⟩] 1 [.present ⟨.add, .pixel 0, .prev, .given 0⟩]).feed =
        .present ⟨.add, .pixel 0, .prev, .given 0⟩ :: [] ∧
      (Evaluation.mk .add (.pixel 0) .prev (.given 0)).usesPrev = true ∧
      (pipe [⟨true, 1⟩, ⟨false, 2⟩] 1 []).inFlight ≠ 0 := by decide
theorem witness_NewestResultIsKept_evaluation :
    ∃ t, step (pipe [⟨false, 1⟩, ⟨false, 2⟩] 0 [.lines (portsOf addFields)]) = .next t ∧ evaluates t :=
  ⟨_, rfl, .inr (by decide)⟩
theorem witness_NewestResultIsKept_bubble :
    ∃ t, step (pipe [⟨true, 1⟩, ⟨false, 2⟩] 1 []) = .next t ∧ ¬ evaluates t ∧ ¬ resets t :=
  ⟨_, rfl, by unfold evaluates; decide, by unfold resets; decide⟩
theorem witness_PrevOperandIsNewestResult : BlockInv State.reset ∧ State.reset.inFlight = 0 :=
  ⟨⟨fun _ => by decide, by decide⟩, rfl⟩

end Sys2Proof.Tests
end

