-- ==== Sys2Proof/Proofs/Scope.lean ====
section
/-! PROOFS. The statements of 00_scope.md: the range of the formulas, the latency every step keeps, and the packing of
a pixel. -/

namespace Sys2Proof.Proofs.Scope

open Sys2Proof.Machine

/-! ## The range of each formula (R9) -/

/-- What is kept of a 16-bit value shifted down by 8 fits a channel. -/
theorem shiftDown_eight_range {v : Int} (h0 : 0 ≤ v) (h1 : v < 65536) :
    0 ≤ shiftDown v 8 ∧ shiftDown v 8 ≤ 255 := by
  unfold shiftDown; omega

/-- The mean of two channel values fits a channel. -/
theorem shiftDown_one_range {v : Int} (h0 : 0 ≤ v) (h1 : v ≤ 510) :
    0 ≤ shiftDown v 1 ∧ shiftDown v 1 ≤ 255 := by
  unfold shiftDown; omega

/-- A value inverted in a channel stays in it. -/
theorem inverted_range {v : Int} (h : 0 ≤ v ∧ v ≤ 255) : 0 ≤ 255 - v ∧ 255 - v ≤ 255 := by
  omega

/-- The product of two values within bounds `m` and `n` is within `m * n`. -/
theorem product_range {x y m n : Int} (hx0 : 0 ≤ x) (hx : x ≤ m) (hy0 : 0 ≤ y) (hy : y ≤ n) :
    0 ≤ x * y ∧ x * y ≤ m * n :=
  ⟨mul_nonneg hx0 hy0, mul_le_mul hx hy hy0 (hx0.trans hx)⟩

/-- The product of two channel values, shifted down by 8, fits a channel. -/
theorem shiftDown_product_range {x y : Int} (hx0 : 0 ≤ x) (hx : x ≤ 255) (hy0 : 0 ≤ y) (hy : y ≤ 255) :
    0 ≤ shiftDown (x * y) 8 ∧ shiftDown (x * y) 8 ≤ 255 := by
  obtain ⟨h0, h1⟩ := product_range hx0 hx hy0 hy
  exact shiftDown_eight_range h0 (by omega)

/-- Twice the product fits as well where one factor is below 128, as in both branches of Overlay. -/
theorem shiftDown_doubled_product_range {x y : Int} (hx0 : 0 ≤ x) (hx : x ≤ 127) (hy0 : 0 ≤ y) (hy : y ≤ 255) :
    0 ≤ shiftDown (2 * x * y) 8 ∧ shiftDown (2 * x * y) 8 ≤ 255 := by
  obtain ⟨h0, h1⟩ := product_range (show 0 ≤ 2 * x by omega) (show 2 * x ≤ 254 by omega) hy0 hy
  exact shiftDown_eight_range h0 (by omega)

theorem addFormula_staysInRange : StaysInRange addFormula := by
  intro x y hx0 hx hy0 hy
  unfold addFormula; omega

theorem subtractFormula_staysInRange : StaysInRange subtractFormula := by
  intro x y hx0 hx hy0 hy
  unfold subtractFormula; omega

theorem addWrapFormula_staysInRange : StaysInRange addWrapFormula := by
  intro x y _ _ _ _
  unfold addWrapFormula; omega

theorem subtractWrapFormula_staysInRange : StaysInRange subtractWrapFormula := by
  intro x y _ _ _ _
  unfold subtractWrapFormula; omega

theorem multiplyFormula_staysInRange : StaysInRange multiplyFormula :=
  fun _ _ hx0 hx hy0 hy => shiftDown_product_range hx0 hx hy0 hy

theorem averageFormula_staysInRange : StaysInRange averageFormula :=
  fun _ _ hx0 hx hy0 hy => shiftDown_one_range (by omega) (by omega)

theorem screenFormula_staysInRange : StaysInRange screenFormula := by
  intro x y hx0 hx hy0 hy
  obtain ⟨hx0', hx'⟩ := inverted_range ⟨hx0, hx⟩
  obtain ⟨hy0', hy'⟩ := inverted_range ⟨hy0, hy⟩
  exact inverted_range (shiftDown_product_range hx0' hx' hy0' hy')

theorem lightenFormula_staysInRange : StaysInRange lightenFormula := by
  intro x y hx0 hx hy0 hy
  exact ⟨le_max_of_le_left hx0, max_le hx hy⟩

theorem darkenFormula_staysInRange : StaysInRange darkenFormula := by
  intro x y hx0 hx hy0 hy
  exact ⟨le_min hx0 hy0, min_le_of_left_le hx⟩

theorem differenceFormula_staysInRange : StaysInRange differenceFormula := by
  intro x y hx0 hx hy0 hy
  unfold differenceFormula; omega

theorem overlayFormula_staysInRange : StaysInRange overlayFormula := by
  intro x y hx0 hx hy0 hy
  unfold overlayFormula
  split
  · exact shiftDown_doubled_product_range hx0 (by omega) hy0 hy
  · obtain ⟨hy0', hy'⟩ := inverted_range ⟨hy0, hy⟩
    exact inverted_range (shiftDown_doubled_product_range (by omega) (by omega) hy0' hy')

theorem colorDodgeFormula_staysInRange : StaysInRange colorDodgeFormula := by
  intro x y hx0 hx hy0 hy
  unfold colorDodgeFormula
  split
  · decide
  · have quotient : 0 ≤ x * 256 / (255 - y) := Int.ediv_nonneg (by omega) (by omega)
    exact ⟨le_min (by decide) quotient, min_le_left _ _⟩

/-- Settles O20, one formula after another. -/
theorem formulasStayInChannelRange : Obligations.FormulasStayInChannelRange := by
  unfold Obligations.FormulasStayInChannelRange
  simp only [List.forall_mem_cons]
  exact ⟨addFormula_staysInRange, subtractFormula_staysInRange, addWrapFormula_staysInRange,
    subtractWrapFormula_staysInRange, multiplyFormula_staysInRange, averageFormula_staysInRange,
    screenFormula_staysInRange, lightenFormula_staysInRange, darkenFormula_staysInRange,
    differenceFormula_staysInRange, overlayFormula_staysInRange, colorDodgeFormula_staysInRange, by simp⟩

/-! ## The latency (R6) -/

/-- Settles O38: the caller leaves the stages alone, and what the block then does shifts them, clears them in place or
holds them. -/
theorem stepKeepsLatency : Obligations.StepKeepsLatency := by
  intro s t h
  obtain ⟨u, hu, event⟩ := step_next h
  obtain ⟨-, stages, -, -, -⟩ := drive_ok hu
  rw [← stages]
  rcases event with ⟨i, -, rfl⟩ | ⟨-, rfl⟩ | ⟨-, rfl⟩ | ⟨-, rfl⟩
  case inl => simp only [observe_stages, issue_stages, evaluate_stages, length_shiftIn]
  case inr.inl => simp only [observe_stages, bubble_stages, length_shiftIn]
  case inr.inr.inl => simp only [resetEdge_stages, length_clearStages]
  case inr.inr.inr => rw [holdClock_stages]

/-! ## The packing of a pixel (R10) -/

/-- A pixel is what its channels pack to. -/
theorem pix_chan (p : Pixel) : pix (chan p .r) (chan p .g) (chan p .b) = p := by
  apply pixel_ext
  intro c
  cases c with
  | r => exact chan_pix_r _ _ _
  | g => exact chan_pix_g _ _ _
  | b => exact chan_pix_b _ _ _

/-- Settles O21. -/
theorem pixelPackingIsRgb : Obligations.PixelPackingIsRgb :=
  ⟨toNat_chan, fun r g b => ⟨chan_pix_r r g b, chan_pix_g r g b, chan_pix_b r g b⟩, pix_chan⟩

end Sys2Proof.Proofs.Scope
end

/-! PROOFS. The statements of 10_state.md: the values after reset, what a step and a clock edge do to the block, the
invariant every step keeps, and what a run of edges leaves in the pipeline. -/

namespace Sys2Proof.Proofs.BlockState

open Sys2Proof.Machine

/-! ## The lines and the event they make (R25, R26) -/

theorem eventOf_no_stage {s : State} (hs : s.stages = []) : eventOf s = evaluationEvent s.ports := by
  simp [eventOf, hs]

theorem eventOf_presenting_edge {s : State} (hs : s.stages ≠ []) (clock : s.ports.clk = driven 1)
    (noReset : s.ports.rst = driven 0) (valid : s.ports.inValid = driven 1) :
    eventOf s = evaluationEvent s.ports := by
  simp [eventOf, hs, clock, noReset, valid]

theorem eventOf_empty_edge {s : State} (hs : s.stages ≠ []) (clock : s.ports.clk = driven 1)
    (noReset : s.ports.rst = driven 0) (invalid : s.ports.inValid = driven 0) : eventOf s = .bubble := by
  simp [eventOf, hs, clock, noReset, invalid]

theorem eventOf_reset_edge {s : State} (hs : s.stages ≠ []) (clock : s.ports.clk = driven 1)
    (reset : s.ports.rst = driven 1) : eventOf s = .reset := by
  simp [eventOf, hs, clock, reset]

theorem eventOf_stopped {s : State} (hs : s.stages ≠ []) (stopped : s.ports.clk = driven 0) : eventOf s = .held := by
  simp [eventOf, hs, stopped]

/-- What the lines say at each event; the converse of the equations above. -/
def LinesAt (s : State) : Event → Prop
  | .evaluation i => sample s.ports = some i ∧ (s.stages = [] ∨
      s.ports.clk.read = some 1 ∧ s.ports.rst.read = some 0 ∧ s.ports.inValid.read = some 1)
  | .bubble => s.stages ≠ [] ∧
      s.ports.clk.read = some 1 ∧ s.ports.rst.read = some 0 ∧ s.ports.inValid.read = some 0
  | .reset => s.stages ≠ [] ∧ s.ports.clk.read = some 1 ∧ s.ports.rst.read = some 1
  | .held => s.stages ≠ [] ∧ s.ports.clk.read = some 0
  | .undefined _ => True

theorem linesAt_eventOf (s : State) : LinesAt s (eventOf s) := by
  rcases eventOf_cases s with
    ⟨i, event, lines⟩ | ⟨event, lines⟩ | ⟨event, lines⟩ | ⟨event, lines⟩ | ⟨r, event⟩ <;> rw [event]
  case inr.inr.inr.inr => trivial
  all_goals exact lines

theorem linesAt {s : State} {e : Event} (h : eventOf s = e) : LinesAt s e :=
  h ▸ linesAt_eventOf s

/-- What an evaluation puts out is `Blend` of the lines it is sampled from. -/
theorem result_of_evaluation {s : State} {i : Instr} (h : eventOf s = .evaluation i) :
    blendFields (encodeFields i) = s.ports.blended :=
  (blendFields_of_sample (linesAt h).1).2

/-! ## The step for each event -/

theorem step_of_bubble {s u : State} (hd : drive s = .ok u) (he : eventOf u = .bubble) :
    step s = .next (observe (bubble u)) := by
  simp [step, hd, he]

theorem step_of_reset {s u : State} (hd : drive s = .ok u) (he : eventOf u = .reset) :
    step s = .next (resetEdge u) := by
  simp [step, hd, he]

theorem step_of_held {s u : State} (hd : drive s = .ok u) (he : eventOf u = .held) :
    step s = .next (holdClock u) := by
  simp [step, hd, he]

/-- Where the step samples an evaluation from defined lines, it evaluates `Blend` of them. -/
theorem step_of_sampling {s u : State} (hd : drive s = .ok u) (he : eventOf u = evaluationEvent u.ports)
    (defined : u.ports.dataDefined) : step s = .next (observe (issue (evaluate u.ports.blended u))) := by
  have event : eventOf u = .evaluation
      (decodeFields ⟨u.ports.mode.val, u.ports.a.val, u.ports.b.val, u.ports.coin.val⟩) := by
    rw [he, evaluationEvent, sample_of_defined defined]
  rw [step_of_evaluation hd event, result_of_evaluation event]

/-- Every step shows `Blend` of the lines on the combinational output, where they are defined (R25). -/
theorem step_blendOut {s t : State} (h : step s = .next t) (defined : t.ports.dataDefined) :
    t.blendOut = t.ports.blended := by
  obtain ⟨u, -, event⟩ := step_next h
  rcases event with ⟨i, evaluation, rfl⟩ | ⟨-, rfl⟩ | ⟨-, rfl⟩ | ⟨-, rfl⟩
  case inl => simpa using result_of_evaluation evaluation
  case inr.inl => simpa using settle_eq_blended (s := u) (by simpa using defined)
  case inr.inr.inl => exact settle_eq_blended (s := u) defined
  case inr.inr.inr => exact settle_eq_blended (s := u) defined

/-! ## How many stages hold a result -/

@[simp] theorem validCount_nil : validCount [] = 0 := rfl

@[simp] theorem validCount_cons (st : Stage) (stages : List Stage) :
    validCount (st :: stages) = validCount stages + st.v.toNat := by
  cases hv : st.v <;> simp [validCount, hv]

@[simp] theorem validCount_append (older newer : List Stage) :
    validCount (older ++ newer) = validCount older + validCount newer :=
  List.countP_append

theorem validCount_dropLast_of_invalid {stages : List Stage} (h : ∀ st ∈ stages, st.v = false) :
    validCount stages.dropLast = 0 :=
  List.countP_eq_zero.2 fun st hst => by simp [h st (List.dropLast_subset _ hst)]

theorem map_v_clearStages (draw k : Nat) (stages : List Stage) :
    (clearStages draw k stages).map Stage.v = stages.map fun _ => false := by
  induction stages generalizing k with
  | nil => rfl
  | cons st rest ih => simp [clearStages, ih]

/-! ## What the harness awaits (R47) -/

/-- The harness reads the last stage's result, if there is one: having awaited all the stages hold, it awaits what
the stages before the last hold. -/
theorem observe_inFlight {s : State} (h : s.inFlight = validCount s.stages) :
    (observe s).inFlight = validCount s.stages.dropLast := by
  rcases List.eq_nil_or_concat' s.stages with hs | ⟨older, last, hs⟩
  · rw [observe_of_result (resultOnY_nil hs)]
    simp [h, hs]
  · cases hv : last.v with
    | true =>
      rw [observe_of_result ((resultOnY_append hs).trans hv)]
      simp [h, hs, hv]
    | false =>
      rw [observe_of_no_result ((resultOnY_append hs).trans hv)]
      simp [h, hs, hv]

/-- With no stage the result of an evaluation is read at once, so the harness awaits what it did before. -/
theorem observe_issue_inFlight_of_no_stage {s : State} (hs : s.stages = []) :
    (observe (issue s)).inFlight = s.inFlight := by
  rw [observe_of_result (resultOnY_nil (s := issue s) hs)]
  simp

/-- The harness's count stays right: an evaluation adds one to it and to the stages, a bubble adds none, a reset edge
empties both and a stopped clock leaves both. -/
theorem step_inFlight {s t : State} (count : s.inFlight = validCount s.stages.dropLast) (h : step s = .next t) :
    t.inFlight = validCount t.stages.dropLast := by
  obtain ⟨u, hu, event⟩ := step_next h
  obtain ⟨-, stages, -, inFlight, -⟩ := drive_ok hu
  rw [← stages, ← inFlight] at count
  rcases event with ⟨i, -, rfl⟩ | ⟨bubbled, rfl⟩ | ⟨-, rfl⟩ | ⟨-, rfl⟩
  case inl =>
    by_cases hs : u.stages = []
    · rw [observe_issue_inFlight_of_no_stage (by simp [hs])]
      simp [count, hs]
    · rw [observe_stages]
      exact observe_inFlight (by simp [shiftIn_of_ne_nil, hs, count])
  case inr.inl =>
    obtain ⟨hs, -⟩ := linesAt bubbled
    rw [observe_stages]
    exact observe_inFlight (by simp [shiftIn_of_ne_nil, hs, count])
  case inr.inr.inl => exact (validCount_dropLast_of_invalid fun _ => v_of_mem_clearStages).symm
  case inr.inr.inr => exact count

/-- Settles O37: both halves of the invariant, each by what a step can do. -/
theorem stepKeepsInvariant : Obligations.StepKeepsInvariant := by
  rintro s t ⟨-, count⟩ h
  exact ⟨step_blendOut h, step_inFlight count h⟩

/-! ## The results in the pipeline (R26, R36) -/

theorem presented_of_valid {p : Ports} (h : p.inValid.read = some 1) : p.presented = some p.blended :=
  if_pos (read_eq_some.1 h).2

theorem presented_of_invalid {p : Ports} (h : p.inValid.read = some 0) : p.presented = none :=
  if_neg (by rw [(read_eq_some.1 h).2]; decide)

/-- An edge without reset puts what the inputs present in front of the results of all stages but the last. -/
theorem edge_results {s t : State} (hs : s.stages ≠ []) (h : step s = .next t) (clock : t.ports.clk = driven 1)
    (noReset : t.ports.rst = driven 0) :
    t.stages.map Stage.result = t.ports.presented :: (s.stages.map Stage.result).dropLast := by
  obtain ⟨u, hu, event⟩ := step_next h
  obtain ⟨-, stages, -, -, -⟩ := drive_ok hu
  rw [← stages] at hs ⊢
  rcases event with ⟨i, evaluation, rfl⟩ | ⟨bubbled, rfl⟩ | ⟨reset, rfl⟩ | ⟨held, rfl⟩
  case inl =>
    obtain ⟨-, noStage | ⟨-, -, valid⟩⟩ := linesAt evaluation
    · exact absurd noStage hs
    · simp [shiftIn_of_ne_nil, hs, Stage.result, presented_of_valid valid, result_of_evaluation evaluation]
  case inr.inl =>
    obtain ⟨-, -, -, invalid⟩ := linesAt bubbled
    simp [shiftIn_of_ne_nil, hs, Stage.result, presented_of_invalid invalid]
  case inr.inr.inl =>
    obtain ⟨-, -, rst⟩ := linesAt reset
    rw [resetEdge_ports] at noReset
    simp [noReset] at rst
  case inr.inr.inr =>
    obtain ⟨-, clk⟩ := linesAt held
    rw [holdClock_ports] at clock
    simp [clock] at clk

/-- A step with the clock stopped leaves the stages alone. -/
theorem stopped_stages {s t : State} (hs : s.stages ≠ []) (h : step s = .next t) (stopped : t.ports.clk = driven 0) :
    t.stages = s.stages := by
  obtain ⟨u, hu, event⟩ := step_next h
  obtain ⟨-, stages, -, -, -⟩ := drive_ok hu
  have lines : t.ports = u.ports := by
    rcases event with ⟨i, -, rfl⟩ | ⟨-, rfl⟩ | ⟨-, rfl⟩ | ⟨-, rfl⟩ <;> simp
  have held : eventOf u = .held := eventOf_stopped (stages ▸ hs) (lines ▸ stopped)
  rw [step_of_held hu held] at h
  cases h
  exact stages

/-- Shifting into a window of the latest `n` gives the window one later. -/
theorem cons_dropLast_take {α : Type} (x : α) (l : List α) {n : Nat} (h0 : n ≠ 0) (hn : n ≤ l.length) :
    x :: (l.take n).dropLast = (x :: l).take n := by
  obtain ⟨k, rfl⟩ := Nat.exists_eq_succ_of_ne_zero h0
  rw [List.dropLast_eq_take, List.take_take, List.length_take_of_le hn, List.take_succ_cons]
  simp

/-- No run of edges changes the latency, as no step does. -/
theorem edgeRun_latency {s t : State} {ins : List (Option Pixel)} (run : EdgeRun s ins t) :
    t.stages.length = s.stages.length := by
  induction run with
  | refl => rfl
  | edge _ move _ _ ih => exact (Scope.stepKeepsLatency _ _ move).trans ih
  | held _ move _ ih => exact (Scope.stepKeepsLatency _ _ move).trans ih

theorem edgeRun_stages_ne_nil {s t : State} {ins : List (Option Pixel)} (run : EdgeRun s ins t)
    (hs : s.stages ≠ []) : t.stages ≠ [] := by
  rw [← List.length_pos_iff] at hs ⊢
  exact (edgeRun_latency run).symm ▸ hs

/-- Settles O39, by induction on the run: an edge moves the window of the latest L inputs by one, and a stopped clock
leaves it. -/
theorem stagesHoldLatestInputs : Obligations.StagesHoldLatestInputs := by
  intro s ins t hs run
  have latency : s.stages.length ≠ 0 := by simpa using hs
  induction run with
  | refl => simp
  | @edge t u ins run move clock noReset ih =>
    have window : s.stages.length ≤ (ins ++ s.stages.map Stage.result).length := by simp
    rw [edge_results (edgeRun_stages_ne_nil run hs) move clock noReset, ih, cons_dropLast_take _ _ latency window,
      List.cons_append]
  | held run move stopped ih => rw [stopped_stages (edgeRun_stages_ne_nil run hs) move stopped, ih]

/-- What a user reads from the outputs is the result of the last stage. -/
theorem output_eq_getLast (s : State) : s.output = (s.stages.map Stage.result).getLast?.join := by
  rcases List.eq_nil_or_concat' s.stages with hs | ⟨older, last, hs⟩
  · simp [State.output, hs]
  · cases hv : last.v with
    | true => simp [State.output, outValid_append hs, y_append hs hv, hs, Stage.result, hv]
    | false => simp [State.output, outValid_append hs, hs, Stage.result, hv]

/-- After at least L edges the stages' results are the latest L inputs alone, so the output depends on them alone. -/
theorem output_of_long_run {s t : State} {ins : List (Option Pixel)} (hs : s.stages ≠ [])
    (long : s.stages.length ≤ ins.length) (run : EdgeRun s ins t) :
    t.output = (ins.take s.stages.length).getLast?.join := by
  rw [output_eq_getLast, stagesHoldLatestInputs s ins t hs run, List.take_append_of_le_length long]

/-- Settles O41: the outputs of both are read off the same inputs. -/
theorem outputsForgetOlderState : Obligations.OutputsForgetOlderState := by
  intro s s' ins t t' hs latency long run run'
  have hs' : s'.stages ≠ [] := by
    rw [← List.length_pos_iff] at hs ⊢
    exact latency ▸ hs
  rw [output_of_long_run hs long run, output_of_long_run hs' (latency ▸ long) run', latency]

/-! ## No stage (R25, R35) -/

/-- With no stage a step with defined operands evaluates them, whatever the lines of the absent ports. -/
theorem step_combinational {s : State} {p : Ports} (hs : s.stages = []) (defined : p.dataDefined) :
    step (s.withLines p) = .next (observe (issue (evaluate p.blended { s with ports := p }))) :=
  step_of_sampling (drive_withLines s p) (eventOf_no_stage hs) defined

/-- Settles O32. -/
theorem combinationalOutputIsBlend : Obligations.CombinationalOutputIsBlend := by
  intro s p hs defined
  refine ⟨_, step_combinational hs defined, ?_, ?_, ?_, ?_⟩
  · rw [observe_y, issue_y, y_nil (by simp [hs])]
    rfl
  · simp
  · simp [hs]
  · exact outValid_nil (by simp [hs])

/-- Settles O42: in any state without stages `y` is `Blend` of the lines. -/
theorem sameInputsSameOutput : Obligations.SameInputsSameOutput := by
  intro s s' p hs hs' defined
  obtain ⟨t, ht, hty, -, stages, -⟩ := combinationalOutputIsBlend s p hs defined
  obtain ⟨t', ht', hty', -⟩ := combinationalOutputIsBlend s' p hs' defined
  obtain ⟨u, hu, huy, -⟩ := combinationalOutputIsBlend t p stages defined
  exact ⟨t, t', u, ht, ht', hty.trans hty'.symm, hu, huy.trans hty.symm⟩

/-! ## Each edge of a pipeline (R26) -/

section Edges
variable {s : State} {p : Ports}

/-- A reset edge clears every valid bit. -/
theorem step_reset_edge (hs : s.stages ≠ []) (clock : p.clk = driven 1) (reset : p.rst = driven 1) :
    ∃ t, step (s.withLines p) = .next t ∧ t.stages.map Stage.v = s.stages.map fun _ => false :=
  ⟨_, step_of_reset (drive_withLines s p) (eventOf_reset_edge hs clock reset), map_v_clearStages _ _ _⟩

/-- An edge with `in_valid` = 1 shifts `Blend` of the inputs into the pipeline. -/
theorem step_presenting_edge (hs : s.stages ≠ []) (clock : p.clk = driven 1) (noReset : p.rst = driven 0)
    (valid : p.inValid = driven 1) (defined : p.dataDefined) :
    ∃ t, step (s.withLines p) = .next t ∧ t.stages = ⟨true, p.blended⟩ :: s.stages.dropLast := by
  refine ⟨_, step_of_sampling (drive_withLines s p) (eventOf_presenting_edge hs clock noReset valid) defined, ?_⟩
  simp [shiftIn_of_ne_nil, hs]

/-- An edge with `in_valid` = 0 shifts a stage without a result into the pipeline. -/
theorem step_empty_edge (hs : s.stages ≠ []) (clock : p.clk = driven 1) (noReset : p.rst = driven 0)
    (invalid : p.inValid = driven 0) :
    ∃ t d, step (s.withLines p) = .next t ∧ t.stages = ⟨false, d⟩ :: s.stages.dropLast ∧
      (p.dataDefined → d = p.blended) := by
  refine ⟨_, settle { s with ports := p },
    step_of_bubble (drive_withLines s p) (eventOf_empty_edge hs clock noReset invalid), ?_, ?_⟩
  · simp [shiftIn_of_ne_nil, hs]
  · exact settle_eq_blended (s := { s with ports := p })

/-- Without an edge the stages keep what they hold. -/
theorem step_stopped (hs : s.stages ≠ []) (stopped : p.clk = driven 0) :
    ∃ t, step (s.withLines p) = .next t ∧ t.stages = s.stages :=
  ⟨_, step_of_held (drive_withLines s p) (eventOf_stopped hs stopped), rfl⟩

end Edges

/-- Settles O33, edge by edge. -/
theorem pipelineEdges : Obligations.PipelineEdges := by
  refine ⟨fun s p hs clock => ⟨step_reset_edge hs clock, fun noReset v hv defined => ?_⟩,
    fun s p hs stopped => step_stopped hs stopped,
    fun s older last hs => ⟨outValid_append hs, y_append hs⟩⟩
  have bit : ∀ v : BitVec 1, v = 1 ∨ v = 0 := by decide
  rcases bit v with rfl | rfl
  · obtain ⟨t, ht, stages⟩ := step_presenting_edge hs clock noReset hv (defined rfl)
    exact ⟨t, p.blended, ht, stages, fun _ => rfl⟩
  · exact step_empty_edge hs clock noReset hv

/-! ## The decoded instruction -/

/-- Settles O30: what `exec` leaves is the evaluation of the tuple, and the harness around it changes its own notes
alone. -/
theorem stepRunsDecodedInstruction : Obligations.StepRunsDecodedInstruction := by
  intro s f
  refine ⟨_, exec_eq_evaluate _ _, step_of_evaluation (drive_withLines s _) (eventOf_portsOf rfl),
    ?_, ?_, ?_, ?_, ?_, ?_⟩
  case refine_6 =>
    intro hs
    rw [observe_of_result (resultOnY_nil (by simp [hs])), issue_y]
  all_goals simp

/-! ## After reset (R28) -/

theorem v_of_mem_resetOf {latency : Nat} {st : Stage} (h : st ∈ (State.resetOf latency).stages) : st.v = false := by
  obtain ⟨k, -, rfl⟩ := List.mem_map.1 h
  rfl

/-- The output at reset is `Blend` of the zero lines, at every latency. -/
theorem blendOut_resetOf (latency : Nat) :
    (State.resetOf latency).blendOut = (State.resetOf latency).ports.blended := by
  change (0 : Pixel) = Ports.atReset.blended
  decide

theorem stages_resetOf_succ (latency : Nat) : (State.resetOf (latency + 1)).stages =
    (State.resetOf latency).stages ++ [⟨false, Config.freeStage 0 latency⟩] := by
  simp [State.resetOf, List.range_succ]

/-- Settles O35. -/
theorem resetValues : Obligations.ResetValues := by
  refine ⟨fun latency => ?_, fun latency positive => ?_, rfl, blendOut_resetOf 0⟩
  · rw [List.eq_replicate_iff]
    exact ⟨by simp [State.resetOf], List.forall_mem_map.2 fun _ => v_of_mem_resetOf⟩
  · obtain ⟨k, rfl⟩ := Nat.exists_eq_add_of_le' positive
    exact outValid_append (stages_resetOf_succ k)

theorem blockInv_resetOf (latency : Nat) : BlockInv (State.resetOf latency) :=
  ⟨fun _ => blendOut_resetOf latency, (validCount_dropLast_of_invalid fun _ => v_of_mem_resetOf).symm⟩

/-- Settles O36: `State.reset` is the reset state of the default latency. -/
theorem resetMeetsInvariant : Obligations.ResetMeetsInvariant :=
  ⟨blockInv_resetOf _, blockInv_resetOf⟩

end Sys2Proof.Proofs.BlockState

/-! PROOFS. The statements of 20_memory.md: the latency and the order of the results, and that the newest result is kept
until the next evaluation or reset. -/

namespace Sys2Proof.Proofs.Memory

open Sys2Proof.Machine Sys2Proof.Proofs.BlockState

/-! ## Latency and order (R36, R114) -/

/-- Settles O40: after L edges or more the output is the last of the latest L inputs, the one sampled L-1 edges before
the last. -/
theorem resultsLeaveInOrderAfterLatency : Obligations.ResultsLeaveInOrderAfterLatency := by
  intro s ins t r hs run sampled
  have positive : s.stages.length ≠ 0 := by simpa using hs
  obtain ⟨within, -⟩ := List.getElem?_eq_some_iff.1 sampled
  rw [output_of_long_run hs (by omega) run, List.getLast?_take, if_neg positive, sampled]
  rfl

/-! ## The newest result (R36, R47) -/

/-- The data of the first valid stage is the first result the stages hold. -/
theorem map_d_find?_v (stages : List Stage) : (stages.find? Stage.v).map Stage.d = stages.findSome? Stage.result := by
  induction stages with
  | nil => rfl
  | cons st rest ih => cases hv : st.v <;> simp [Stage.result, hv, ih]

/-- The newest result is the earliest in the stages before the last, else the one last read. -/
theorem newest_eq (s : State) : newest s = (s.stages.dropLast.findSome? Stage.result).or s.prev := by
  rw [← map_d_find?_v, newest]
  cases s.stages.dropLast.find? Stage.v <;> rfl

theorem newest_congr {s t : State} (stages : t.stages = s.stages) (prev : t.prev = s.prev) : newest t = newest s := by
  simp only [newest_eq, stages, prev]

/-- The harness reads the last stage's result, if there is one, so that no result of the pipeline is lost. -/
theorem newest_observe {s : State} (hs : s.stages ≠ []) :
    newest (observe s) = (s.stages.findSome? Stage.result).or s.prev := by
  obtain ⟨older, last, stages⟩ := (List.eq_nil_or_concat' s.stages).resolve_left hs
  cases hv : last.v with
  | true =>
    rw [observe_of_result ((resultOnY_append stages).trans hv), y_append stages hv]
    simp [newest_eq, stages, List.findSome?_append, Stage.result, hv]
  | false =>
    rw [observe_of_no_result ((resultOnY_append stages).trans hv)]
    simp [newest_eq, stages, List.findSome?_append, Stage.result, hv]

/-- What an evaluation gives is the newest result: read at once with no stage, else in the first stage. -/
theorem newest_evaluation (result : Pixel) (u : State) :
    newest (observe (issue (evaluate result u))) = some result := by
  by_cases hs : u.stages = []
  · have noStage : (issue (evaluate result u)).stages = [] := by simp [hs]
    rw [observe_of_result (resultOnY_nil noStage), y_nil noStage]
    simp [newest_eq, hs]
  · rw [newest_observe] <;> simp [shiftIn_of_ne_nil, hs, Stage.result]

/-- A bubble moves every result one stage on, the one it takes to the last stage being read. -/
theorem newest_bubble {u : State} (hs : u.stages ≠ []) : newest (observe (bubble u)) = newest u := by
  rw [newest_observe, newest_eq] <;> simp [shiftIn_of_ne_nil, hs, Stage.result]

/-! ## What the lines present, by the event they make (R25, R26) -/

section Congr
variable {s t : State} (latency : t.stages.length = s.stages.length) (lines : t.ports = s.ports)
include latency lines

theorem evaluates_congr : evaluates t ↔ evaluates s := by
  rw [evaluates, evaluates, ← List.length_eq_zero_iff, latency, List.length_eq_zero_iff, lines]

theorem resets_congr : resets t ↔ resets s := by
  rw [resets, resets, ← List.length_pos_iff, latency, List.length_pos_iff, lines]

end Congr

theorem evaluates_of_evaluation {s : State} {i : Instr} (h : eventOf s = .evaluation i) : evaluates s := by
  obtain ⟨-, noStage | ⟨clk, rst, inValid⟩⟩ := linesAt h
  · exact .inl noStage
  · refine .inr ⟨(read_eq_some.1 clk).2, ?_, (read_eq_some.1 inValid).2⟩
    rw [(read_eq_some.1 rst).2]
    decide

theorem not_evaluates_of_bubble {s : State} (h : eventOf s = .bubble) : ¬ evaluates s := by
  obtain ⟨hs, -, -, invalid⟩ := linesAt h
  simp [evaluates, hs, (read_eq_some.1 invalid).2]

theorem not_evaluates_of_held {s : State} (h : eventOf s = .held) : ¬ evaluates s := by
  obtain ⟨hs, stopped⟩ := linesAt h
  simp [evaluates, hs, (read_eq_some.1 stopped).2]

theorem not_evaluates_of_reset {s : State} (h : eventOf s = .reset) : ¬ evaluates s := by
  obtain ⟨hs, -, rst⟩ := linesAt h
  simp [evaluates, hs, (read_eq_some.1 rst).2]

theorem resets_of_reset {s : State} (h : eventOf s = .reset) : resets s := by
  obtain ⟨hs, clk, rst⟩ := linesAt h
  exact ⟨hs, (read_eq_some.1 clk).2, (read_eq_some.1 rst).2⟩

/-- Settles O48: the caller's cue leaves stages and notes alone, an evaluation then gives the newest result, and a
bubble or a stopped clock keeps it. -/
theorem newestResultIsKept : Obligations.NewestResultIsKept := by
  intro s t h
  obtain ⟨u, hu, event⟩ := step_next h
  obtain ⟨-, stages, -, -, prev⟩ := drive_ok hu
  have start : newest u = newest s := newest_congr stages prev
  have latency : t.stages.length = u.stages.length := stages ▸ Scope.stepKeepsLatency s t h
  have lines : t.ports = u.ports := by
    rcases event with ⟨i, -, rfl⟩ | ⟨-, rfl⟩ | ⟨-, rfl⟩ | ⟨-, rfl⟩ <;> simp
  rw [evaluates_congr latency lines, resets_congr latency lines]
  rcases event with ⟨i, evaluation, rfl⟩ | ⟨bubbled, rfl⟩ | ⟨reset, rfl⟩ | ⟨held, rfl⟩
  case inl =>
    exact ⟨fun _ => by simp [newest_evaluation], fun idle => absurd (evaluates_of_evaluation evaluation) idle⟩
  case inr.inl =>
    obtain ⟨hs, -⟩ := linesAt bubbled
    exact ⟨fun presents => absurd presents (not_evaluates_of_bubble bubbled),
      fun _ _ => (newest_bubble hs).trans start⟩
  case inr.inr.inl =>
    exact ⟨fun presents => absurd presents (not_evaluates_of_reset reset),
      fun _ running => absurd (resets_of_reset reset) running⟩
  case inr.inr.inr =>
    exact ⟨fun presents => absurd presents (not_evaluates_of_held held),
      fun _ _ => (newest_congr (holdClock_stages u) (holdClock_prev u)).trans start⟩

end Sys2Proof.Proofs.Memory

/-! PROOFS. The statements of 30_encoding.md: the word, its hex digits and the mode table read both ways, what the
harness lets `@` stand for, and the assembler's lines read back. -/

namespace Sys2Proof.Proofs.Encoding

open Sys2Proof.Machine

/-! ## The word and its fields (R45) -/

theorem toNat_wordOfFields (f : Fields) : (wordOfFields f).toNat =
    f.coin.toNat * 2 ^ 52 + f.mode.toNat * 2 ^ 48 + f.a.toNat * 2 ^ 24 + f.b.toNat := by
  rw [wordOfFields, toNat_append, toNat_append, toNat_append]
  ring

theorem toNat_fieldsOfWord (w : EvalWord) :
    (fieldsOfWord w).coin.toNat = w.toNat / 2 ^ 52 ∧ (fieldsOfWord w).mode.toNat = w.toNat / 2 ^ 48 % 2 ^ 4 ∧
      (fieldsOfWord w).a.toNat = w.toNat / 2 ^ 24 % 2 ^ 24 ∧ (fieldsOfWord w).b.toNat = w.toNat % 2 ^ 24 := by
  have := w.isLt
  simp only [fieldsOfWord, BitVec.extractLsb'_toNat, Nat.shiftRight_eq_div_pow]
  exact ⟨by omega, trivial, trivial, by omega⟩

/-- A tuple is given by the numbers on its four ports. -/
theorem fields_ext_toNat {f g : Fields} (mode : f.mode.toNat = g.mode.toNat) (a : f.a.toNat = g.a.toNat)
    (b : f.b.toNat = g.b.toNat) (coin : f.coin.toNat = g.coin.toNat) : f = g := by
  cases f; cases g
  simp only [Fields.mk.injEq]
  exact ⟨BitVec.eq_of_toNat_eq mode, BitVec.eq_of_toNat_eq a, BitVec.eq_of_toNat_eq b, BitVec.eq_of_toNat_eq coin⟩

@[simp] theorem fieldsOfWord_wordOfFields (f : Fields) : fieldsOfWord (wordOfFields f) = f := by
  obtain ⟨coin, mode, a, b⟩ := toNat_fieldsOfWord (wordOfFields f)
  rw [toNat_wordOfFields] at coin mode a b
  have := f.mode.isLt
  have := f.a.isLt
  have := f.b.isLt
  apply fields_ext_toNat <;> omega

@[simp] theorem wordOfFields_fieldsOfWord (w : EvalWord) : wordOfFields (fieldsOfWord w) = w := by
  obtain ⟨coin, mode, a, b⟩ := toNat_fieldsOfWord w
  apply BitVec.eq_of_toNat_eq
  rw [toNat_wordOfFields, coin, mode, a, b]
  omega

/-- Every instruction is the one its tuple decodes to: the Laws' sixteen cases together. -/
@[simp] theorem decodeFields_encodeFields : ∀ i, decodeFields (encodeFields i) = i
  | .add a b c          => Laws.Rebuild.add a b c
  | .subtract a b c     => Laws.Rebuild.subtract a b c
  | .addWrap a b c      => Laws.Rebuild.addWrap a b c
  | .subtractWrap a b c => Laws.Rebuild.subtractWrap a b c
  | .multiply a b c     => Laws.Rebuild.multiply a b c
  | .dissolve a b c     => Laws.Rebuild.dissolve a b c
  | .average a b c      => Laws.Rebuild.average a b c
  | .set a b c          => Laws.Rebuild.set a b c
  | .screen a b c       => Laws.Rebuild.screen a b c
  | .lighten a b c      => Laws.Rebuild.lighten a b c
  | .darken a b c       => Laws.Rebuild.darken a b c
  | .difference a b c   => Laws.Rebuild.difference a b c
  | .overlay a b c      => Laws.Rebuild.overlay a b c
  | .colorDodge a b c   => Laws.Rebuild.colorDodge a b c
  | .rsv14 a b c        => Laws.Rebuild.rsv14 a b c
  | .rsv15 a b c        => Laws.Rebuild.rsv15 a b c

theorem encodeFields_injective : Function.Injective encodeFields :=
  Function.LeftInverse.injective decodeFields_encodeFields

theorem decode_wordOfFields (f : Fields) : decode (wordOfFields f) = decodeFields f := by
  rw [decode, fieldsOfWord_wordOfFields]

theorem encode_decodeFields (f : Fields) : encode (decodeFields f) = wordOfFields f := by
  rw [encode, encodeFields_decodeFields]

theorem decode_encode (i : Instr) : decode (encode i) = i := by
  rw [encode, decode_wordOfFields, decodeFields_encodeFields]

theorem encode_decode (w : EvalWord) : encode (decode w) = w := by
  rw [decode, encode_decodeFields, wordOfFields_fieldsOfWord]

/-- Settles O26: tuple and word, and instruction and tuple, are inverse both ways. -/
theorem decodeEncodeAgree : Obligations.DecodeEncodeAgree :=
  ⟨decode_encode, encode_decode⟩

/-- Settles O29. -/
theorem sampleWordsDecode : Obligations.SampleWordsDecode := by
  unfold Obligations.SampleWordsDecode
  decide

/-- Settles O25; the rule's example word is the first of the sample words. -/
theorem wordLayoutIsCoinModeAB : Obligations.WordLayoutIsCoinModeAB :=
  ⟨toNat_wordOfFields, toNat_fieldsOfWord, sampleWordsDecode.1⟩

/-! ## The mode table (R41, R42, R44) -/

/-- Settles O22: each number of the table is the one its instruction encodes. -/
theorem modeNumbersFollowTable : Obligations.ModeNumbersFollowTable := fun a b coin =>
  ⟨Laws.Rebuild.add a b coin, Laws.Rebuild.subtract a b coin, Laws.Rebuild.addWrap a b coin,
    Laws.Rebuild.subtractWrap a b coin, Laws.Rebuild.multiply a b coin, Laws.Rebuild.dissolve a b coin,
    Laws.Rebuild.average a b coin, Laws.Rebuild.set a b coin, Laws.Rebuild.screen a b coin,
    Laws.Rebuild.lighten a b coin, Laws.Rebuild.darken a b coin, Laws.Rebuild.difference a b coin,
    Laws.Rebuild.overlay a b coin, Laws.Rebuild.colorDodge a b coin, Laws.Rebuild.rsv14 a b coin,
    Laws.Rebuild.rsv15 a b coin⟩

/-- The instruction of a tuple is one evaluation of `Blend` of the tuple. -/
theorem exec_decodeFields (f : Fields) (s : State) : exec (decodeFields f) s = .next (evaluate (blendFields f) s) := by
  rw [exec_eq_evaluate, encodeFields_decodeFields]

theorem delivers_decodeFields (f : Fields) (s : State) : Delivers (decodeFields f) s (blendFields f) :=
  ⟨_, exec_decodeFields f s, rfl, fun hs => y_nil (by simp [hs]), rfl, rfl, rfl, rfl, rfl, rfl⟩

theorem blend_of_undefined_mode {n : Nat} (h : 14 ≤ n) (a b : Pixel) (coin : Coin) :
    blend n a b coin = blend 0 a b coin := by
  obtain ⟨k, rfl⟩ := Nat.exists_eq_add_of_le' h
  rfl

/-- Settles O23: the undefined modes run the very meaning of Add. -/
theorem everyModeDeliversBlend : Obligations.EveryModeDeliversBlend :=
  ⟨delivers_decodeFields, fun _ _ _ _ => ⟨rfl, rfl⟩, fun _ h => blend_of_undefined_mode h⟩

theorem blend_coin_irrelevant {n : Nat} (h : n ≠ 5) (a b : Pixel) (c c' : Coin) : blend n a b c = blend n a b c' := by
  unfold blend
  split
  case h_6 => exact absurd rfl h
  all_goals rfl

theorem exec_coin_irrelevant {f : Fields} (h : f.mode ≠ 5) (coin : Coin) (s : State) :
    exec (decodeFields f) s = exec (decodeFields { f with coin := coin }) s := by
  have number : f.mode.toNat ≠ 5 := fun e => h (BitVec.eq_of_toNat_eq e)
  rw [exec_decodeFields, exec_decodeFields, blendFields, blend_coin_irrelevant number]
  rfl

/-- Dissolve of black with white shows the coin. -/
theorem dissolve_reads_coin (s : State) : exec (.dissolve 0 0xFFFFFF 0) s ≠ exec (.dissolve 0 0xFFFFFF 1) s := by
  rw [exec_eq_evaluate, exec_eq_evaluate]
  intro h
  have outputs := congrArg State.blendOut (Host.Outcome.next.inj h)
  revert outputs
  simp only [evaluate_blendOut]
  decide

/-- Settles O24. -/
theorem onlyDissolveReadsCoin : Obligations.OnlyDissolveReadsCoin :=
  ⟨fun _ coin s h => exec_coin_irrelevant h coin s, _, _, State.reset, dissolve_reads_coin _⟩

/-! ## The 14 hex digits, as seven bytes (R45) -/

/-- The tuple that seven bytes write, the high bits of the first one aside. -/
def fieldsOfBytes (cm a2 a1 a0 b2 b1 b0 : BitVec 8) : Fields where
  mode := cm.extractLsb' 0 4
  a    := a2 ++ a1 ++ a0
  b    := b2 ++ b1 ++ b0
  coin := cm.extractLsb' 4 1

/-- Everything that decodes: seven bytes, the first of them below 32. -/
theorem decodeBytes_eq_ok {bytes : List (BitVec 8)} {i : Instr} :
    decodeBytes bytes = .ok i ↔ ∃ cm a2 a1 a0 b2 b1 b0, bytes = [cm, a2, a1, a0, b2, b1, b0] ∧ cm.toNat < 32 ∧
      decodeFields (fieldsOfBytes cm a2 a1 a0 b2 b1 b0) = i := by
  constructor
  · intro h
    unfold decodeBytes at h
    split at h
    · rename_i cm a2 a1 a0 b2 b1 b0
      split at h
      · rename_i hcm
        exact ⟨cm, a2, a1, a0, b2, b1, b0, rfl, hcm, Except.ok.inj h⟩
      · cases h
    · cases h
  · rintro ⟨cm, a2, a1, a0, b2, b1, b0, rfl, hcm, rfl⟩
    exact if_pos hcm

/-- The word that seven bytes write is the number they are in base 256. -/
theorem toNat_word_of_fieldsOfBytes {cm : BitVec 8} (h : cm.toNat < 32) (a2 a1 a0 b2 b1 b0 : BitVec 8) :
    (wordOfFields (fieldsOfBytes cm a2 a1 a0 b2 b1 b0)).toNat =
      cm.toNat * 2 ^ 48 + a2.toNat * 2 ^ 40 + a1.toNat * 2 ^ 32 + a0.toNat * 2 ^ 24 + b2.toNat * 2 ^ 16 +
        b1.toNat * 2 ^ 8 + b0.toNat := by
  simp only [toNat_wordOfFields, fieldsOfBytes, toNat_append, BitVec.extractLsb'_toNat, Nat.shiftRight_eq_div_pow]
  omega

/-- An instruction's bytes are the digits of its word in base 256. -/
theorem encodeBytes_eq_iff {i : Instr} {cm a2 a1 a0 b2 b1 b0 : BitVec 8} :
    encodeBytes i = [cm, a2, a1, a0, b2, b1, b0] ↔ (encode i).toNat =
      cm.toNat * 2 ^ 48 + a2.toNat * 2 ^ 40 + a1.toNat * 2 ^ 32 + a0.toNat * 2 ^ 24 + b2.toNat * 2 ^ 16 +
        b1.toNat * 2 ^ 8 + b0.toNat := by
  have := (encode i).isLt
  have := cm.isLt
  have := a2.isLt
  have := a1.isLt
  have := a0.isLt
  have := b2.isLt
  have := b1.isLt
  have := b0.isLt
  have wide : (encode i).toNat % 2 ^ 56 = (encode i).toNat := Nat.mod_eq_of_lt (by omega)
  simp only [encodeBytes, List.cons.injEq, and_true, ← BitVec.toNat_inj, BitVec.extractLsb'_toNat,
    BitVec.toNat_setWidth, Nat.shiftRight_eq_div_pow, wide]
  omega

/-- Seven bytes decode to the instruction whose bytes they are, and nothing else does. -/
theorem decodeBytes_eq_ok_iff {bytes : List (BitVec 8)} {i : Instr} :
    decodeBytes bytes = .ok i ↔ encodeBytes i = bytes := by
  rw [decodeBytes_eq_ok]
  constructor
  · rintro ⟨cm, a2, a1, a0, b2, b1, b0, rfl, hcm, rfl⟩
    rw [encodeBytes_eq_iff, encode_decodeFields, toNat_word_of_fieldsOfBytes hcm]
  · rintro rfl
    have sevenBytes : ∃ cm a2 a1 a0 b2 b1 b0, encodeBytes i = [cm, a2, a1, a0, b2, b1, b0] :=
      ⟨_, _, _, _, _, _, _, rfl⟩
    obtain ⟨cm, a2, a1, a0, b2, b1, b0, bytes⟩ := sevenBytes
    have number := encodeBytes_eq_iff.1 bytes
    have hcm : cm.toNat < 32 := by
      have := (encode i).isLt
      omega
    have word : encode i = wordOfFields (fieldsOfBytes cm a2 a1 a0 b2 b1 b0) :=
      BitVec.eq_of_toNat_eq (by rw [number, toNat_word_of_fieldsOfBytes hcm])
    exact ⟨cm, a2, a1, a0, b2, b1, b0, bytes, hcm, by rw [← decode_wordOfFields, ← word, decode_encode]⟩

/-- Settles O27. Which bytes are accepted is read off what decodes: the high digit of the first is at most 1 where it is
below 32. -/
theorem hexDigitsDecode : Obligations.HexDigitsDecode := by
  refine ⟨fun i => decodeBytes_eq_ok_iff.2 rfl, fun _ _ => decodeBytes_eq_ok_iff.1, fun bytes => ?_⟩
  simp only [decodeBytes_eq_ok]
  constructor
  · rintro ⟨i, cm, a2, a1, a0, b2, b1, b0, rfl, hcm, -⟩
    exact ⟨rfl, show cm.toNat / 16 ≤ 1 by omega⟩
  · rintro ⟨seven, digit⟩
    match bytes, seven with
    | [cm, a2, a1, a0, b2, b1, b0], _ =>
      have hcm : cm.toNat / 16 ≤ 1 := digit
      exact ⟨_, cm, a2, a1, a0, b2, b1, b0, rfl, by omega, rfl⟩

/-! ## The step: what runs next, and that nothing is left unmodelled (R40, R42, R100) -/

/-- Settles O31: the word decodes to the tuple that `withFetchWord` drives. -/
theorem fetchWordRunsNext : Obligations.FetchWordRunsNext := by
  intro s nbits w i h
  obtain ⟨-, ⟨rfl⟩⟩ := Option.ite_none_right_eq_some.1 h
  rw [decode_wordOfFields, encodeFields_decodeFields]
  obtain ⟨t, runs, steps, -⟩ := BlockState.stepRunsDecodedInstruction s (fieldsOfTable (w % 2 ^ nbits))
  exact ⟨t, runs, steps⟩

theorem exec_ne_refused (i : Instr) (s : State) (r : Refusal) : exec i s ≠ .refused r := by
  rw [exec_eq_evaluate]
  nofun

/-- The block refuses its lines by one of two names alone. -/
theorem eventOf_undefined {s : State} {r : Refusal} (h : eventOf s = .undefined r) :
    r = .undefinedInput ∨ r = .undefinedControl := by
  have data : evaluationEvent s.ports = .undefined r → r = .undefinedInput := by
    unfold evaluationEvent
    split <;> simp +contextual [eq_comm]
  unfold eventOf at h
  split at h
  · exact .inl (data h)
  split at h
  · cases h
    exact .inr rfl
  split at h
  case isFalse => cases h
  split at h
  · cases h
    exact .inr rfl
  split at h
  · cases h
  split at h
  · cases h
    exact .inr rfl
  split at h
  · exact .inl (data h)
  · cases h

/-- Everything a refused step can be: a cue that needs a result there is not, or an undefined line. -/
theorem step_refused {s : State} {r : Refusal} (h : step s = .refused r) :
    r = .noPreviousResult ∨ r = .undefinedInput ∨ r = .undefinedControl := by
  unfold step at h
  split at h
  case h_1 r' cue =>
    cases h
    exact .inl (drive_error cue)
  case h_2 u _ =>
    split at h
    case h_1 i _ =>
      rw [exec_eq_evaluate] at h
      cases h
    case h_5 r' event =>
      cases h
      exact .inr (eventOf_undefined event)
    all_goals cases h

/-- Settles O45. -/
theorem nothingLeftUnmodelled : Obligations.NothingLeftUnmodelled := by
  refine ⟨exec_ne_refused, fun s name h => ?_⟩
  rcases step_refused h with cue | data | control
  · cases cue
  · cases data
  · cases control

/-! ## The harness: what `@` stands for (R47) -/

/-- Settles O49: with nothing awaited no stage before the last holds a result, so the newest is the one last read. -/
theorem prevOperandIsNewestResult : Obligations.PrevOperandIsNewestResult := by
  rintro s ⟨-, count⟩ nothing
  have empty : ∀ st ∈ s.stages.dropLast, ¬ st.v = true := by
    rw [nothing] at count
    exact List.countP_eq_zero.1 count.symm
  rw [newest, List.find?_eq_none.2 empty]
  rfl

/-- While it must wait the harness presents nothing. -/
theorem drive_waiting {s : State} {e : Evaluation} {rest : List Cue} (hf : s.feed = .present e :: rest)
    (wait : mustWait s e = true) : drive s = .ok { s with ports := s.ports.idle } := by
  simp [drive, hf, wait]

/-- Settles O47: the idle lines make a bubble, which leaves the feed alone. -/
theorem harnessWaitsForPreviousResult : Obligations.HarnessWaitsForPreviousResult := by
  intro s e rest hs hf uses awaited
  have waiting := drive_waiting hf (mustWait_eq_true.2 ⟨uses, awaited, hs⟩)
  refine ⟨_, BlockState.step_of_bubble waiting (eventOf_idle hs rfl), ?_, ?_, ?_⟩
  · rw [observe_feed, bubble_feed]
  · rw [observe_ports, bubble_ports]
  · simp [shiftIn_of_ne_nil, hs, Stage.result]

/-- Where `q` is what `@` stands for, if an evaluation uses it, its operands resolve to their values. -/
theorem operandPixel_eq_operandValue {prev : Option Pixel} {q : Pixel} {o : Operand} (h : o = .prev → prev = some q) :
    operandPixel prev o = some (operandValue q o) := by
  cases o with
  | pixel p => rfl
  | prev => exact h rfl

theorem usesPrev_eq_true {e : Evaluation} : e.usesPrev = true ↔ e.a = .prev ∨ e.b = .prev := by
  simp [Evaluation.usesPrev]

/-- The tuple a presented evaluation stands for where `@` is `q`, at the step counted `draws`. -/
def presentedFields (q : Pixel) (draws : Nat) (e : Evaluation) : Fields where
  mode := modeNumber e.mode
  a    := operandValue q e.a
  b    := operandValue q e.b
  coin := coinValue draws e.coin

theorem resolve_eq_presentedFields {s : State} {e : Evaluation} {q : Pixel} (h : e.usesPrev = true → s.prev = some q) :
    resolve s e = some (presentedFields q s.draws e) := by
  rw [usesPrev_eq_true] at h
  exact resolve_eq_some.2 ⟨operandPixel_eq_operandValue fun ha => h (.inl ha),
    operandPixel_eq_operandValue fun hb => h (.inr hb), rfl, rfl⟩

section NoStage
variable {s : State} (hs : s.stages = [])
include hs

/-- With no stage the harness presents an evaluation at once. -/
theorem drive_present_of_no_stage {e : Evaluation} {rest : List Cue} {q : Pixel} (hf : s.feed = .present e :: rest)
    (hq : e.usesPrev = true → s.prev = some q) :
    drive s = .ok { s with ports := portsOf (presentedFields q s.draws e), feed := rest } := by
  have ready : mustWait s e = false := by simp [mustWait, hs]
  simp [drive, hf, ready, resolve_eq_presentedFields hq]

/-- With no stage a step answers with `Blend` of the lines driven on `y`, and the harness reads it for `@`. -/
theorem step_of_no_stage {u : State} (hd : drive s = .ok u) (defined : u.ports.dataDefined) :
    ∃ t, step s = .next t ∧ t.y = u.ports.blended ∧ t.prev = some t.y ∧ t.stages = [] ∧ t.feed = u.feed := by
  obtain ⟨-, stages, -, -, -⟩ := drive_ok hd
  have hu : u.stages = [] := stages.trans hs
  have noStage : (issue (evaluate u.ports.blended u)).stages = [] := by simp [hu]
  refine ⟨_, BlockState.step_of_sampling hd (BlockState.eventOf_no_stage hu) defined, ?_, ?_, ?_, ?_⟩
  · rw [observe_y, y_nil noStage, issue_blendOut, evaluate_blendOut]
  · rw [observe_y, observe_of_result (resultOnY_nil noStage)]
  · rw [observe_stages, noStage]
  · simp

/-- With no stage a presented evaluation answers with `Blend` of its mode, operands and coin, `@` the result last
read. -/
theorem step_present_of_no_stage {e : Evaluation} {rest : List Cue} {q : Pixel} (hf : s.feed = .present e :: rest)
    (hq : e.usesPrev = true → s.prev = some q) :
    ∃ t, step s = .next t ∧ t.y = blendFields (presentedFields q s.draws e) ∧ t.prev = some t.y ∧ t.stages = [] ∧
      t.feed = rest :=
  step_of_no_stage hs (drive_present_of_no_stage hs hf hq) (portsOf_dataDefined _)

/-- With no stage given lines that are defined answer with `Blend` of them. -/
theorem step_lines_of_no_stage {p : Ports} {rest : List Cue} (hf : s.feed = .lines p :: rest)
    (defined : p.dataDefined) :
    ∃ t, step s = .next t ∧ t.y = p.blended ∧ t.prev = some t.y ∧ t.stages = [] ∧ t.feed = rest :=
  step_of_no_stage hs (u := { s with ports := p, feed := rest }) (by simp [drive, hf]) defined

end NoStage

/-- Settles O46: after any first cue `@` is the `y` just read, and the evaluation presented next takes it. -/
theorem chainedEvaluationReadsPreviousY : Obligations.ChainedEvaluationReadsPreviousY := by
  intro s first e rest hs hf linesDefined prevKnown
  cases first with
  | lines p =>
    obtain ⟨t, ht, y, prev, stages, feed⟩ := step_lines_of_no_stage hs hf (linesDefined p rfl)
    obtain ⟨u, hu, uy, -, -, ufeed⟩ := step_present_of_no_stage stages feed fun _ => prev
    refine ⟨t, u, ht, hu, ufeed, ?_, nofun, uy⟩
    rintro _ ⟨rfl⟩
    exact y
  | present e₀ =>
    have known : e₀.usesPrev = true → s.prev = some (s.prev.getD 0) := fun uses => by
      rw [Option.getD_of_ne_none (prevKnown e₀ rfl uses)]
    obtain ⟨t, ht, -, prev, stages, feed⟩ := step_present_of_no_stage hs hf known
    obtain ⟨u, hu, uy, -, -, ufeed⟩ := step_present_of_no_stage stages feed fun _ => prev
    refine ⟨t, u, ht, hu, ufeed, nofun, ?_, uy⟩
    rintro _ q ⟨rfl⟩ hq
    obtain ⟨t', ht', y, -⟩ := step_present_of_no_stage hs hf hq
    rw [ht] at ht'
    cases ht'
    exact y

/-! ## Reading back what is printed: mnemonics, numbers, operands (R46) -/

theorem modeOfMnemonic_mnemonic (m : Mode) : modeOfMnemonic (mnemonic m) = some m := by
  cases m <;> decide

/-- A mnemonic holds no blank, so that it ends where the first one stands. -/
theorem ne_blank_of_mem_mnemonic (m : Mode) : ∀ c ∈ mnemonic m, (c != ' ') = true := by
  cases m <;> simp [mnemonic]

theorem dropBlanks_cons {c : Char} (h : c ≠ ' ') (text : List Char) :
    (c :: text).dropWhile (· == ' ') = c :: text := by
  simp [h]

/-- A mark is found where it stands, and the blanks after it skipped. -/
theorem parseMark_self {mark : Char} (h : mark ≠ ' ') (text : List Char) :
    parseMark mark (mark :: text) = some (text.dropWhile (· == ' ')) := by
  rw [parseMark, dropBlanks_cons h]
  simp

theorem parseMark_comma (text : List Char) : parseMark ',' (',' :: text) = some (text.dropWhile (· == ' ')) :=
  parseMark_self (by decide) text

/-- Text at whose start a number, a mark or a line ends: it begins with neither a blank nor a digit. -/
def StartsAtMark (text : List Char) : Prop :=
  ∀ c ∈ text.head?, c ≠ ' ' ∧ c.isDigit = false

theorem startsAtMark_nil : StartsAtMark [] := nofun

theorem startsAtMark_cons {c : Char} (text : List Char) (blank : c ≠ ' ') (digit : c.isDigit = false) :
    StartsAtMark (c :: text) := by
  rintro _ ⟨rfl⟩
  exact ⟨blank, digit⟩

theorem startsAtMark_comma (text : List Char) : StartsAtMark (',' :: text) :=
  startsAtMark_cons text (by decide) (by decide)

theorem startsAtMark_bracket (text : List Char) : StartsAtMark (')' :: text) :=
  startsAtMark_cons text (by decide) (by decide)

theorem dropBlanks_of_startsAtMark {text : List Char} (h : StartsAtMark text) :
    text.dropWhile (· == ' ') = text := by
  cases text with
  | nil => rfl
  | cons c rest => exact dropBlanks_cons (h c rfl).1 rest

/-! ### Decimal numbers -/

/-- The last decimal digit of a number, as a character. -/
def decimalDigit (n : Nat) : Char :=
  hexDigits.getD (n % 10) '0'

theorem decimalDigit_value (n : Nat) :
    (decimalDigit n).isDigit = true ∧ (decimalDigit n).toNat - '0'.toNat = n % 10 := by
  have table : ∀ d < 10, (hexDigits.getD d '0').isDigit = true ∧ (hexDigits.getD d '0').toNat - '0'.toNat = d := by
    decide
  exact table (n % 10) (Nat.mod_lt n (by decide))

theorem takeDecimal_digit (k n : Nat) (text : List Char) :
    takeDecimal (decimalDigit k :: text) n = takeDecimal text (10 * n + k % 10) := by
  obtain ⟨digit, value⟩ := decimalDigit_value k
  rw [takeDecimal, if_pos digit, value]

theorem takeDecimal_end {text : List Char} (h : StartsAtMark text) (n : Nat) : takeDecimal text n = (n, text) := by
  cases text with
  | nil => rfl
  | cons c rest =>
    obtain ⟨-, digit⟩ := h c rfl
    simp [takeDecimal, digit]

theorem parseDecimal_digit (k : Nat) (text : List Char) :
    parseDecimal (decimalDigit k :: text) = some (takeDecimal text (k % 10)) := by
  obtain ⟨digit, -⟩ := decimalDigit_value k
  rw [parseDecimal, if_pos digit, takeDecimal_digit, Nat.mul_zero, Nat.zero_add]

theorem printDecimal_eq (n : Nat) : printDecimal n =
    if n < 10 then [decimalDigit n]
    else if n < 100 then [decimalDigit (n / 10), decimalDigit n]
    else [decimalDigit (n / 100), decimalDigit (n / 10), decimalDigit n] := by
  by_cases one : n < 10
  · have two : n < 100 := by omega
    simp [printDecimal, decimalDigit, one, two]
  · by_cases two : n < 100 <;> simp [printDecimal, decimalDigit, one, two]

/-- A printed number of at most three digits is read back, up to the mark after it. -/
theorem parseDecimal_printDecimal {n : Nat} (hn : n < 1000) {text : List Char} (h : StartsAtMark text) :
    parseDecimal (printDecimal n ++ text) = some (n, text) := by
  rw [printDecimal_eq]
  split_ifs
  · have value : n % 10 = n := by omega
    simp only [List.cons_append, List.nil_append, parseDecimal_digit, takeDecimal_end h, value]
  · have value : 10 * (n / 10 % 10) + n % 10 = n := by omega
    simp only [List.cons_append, List.nil_append, parseDecimal_digit, takeDecimal_digit, takeDecimal_end h, value]
  · have value : 10 * (10 * (n / 100 % 10) + n / 10 % 10) + n % 10 = n := by omega
    simp only [List.cons_append, List.nil_append, parseDecimal_digit, takeDecimal_digit, takeDecimal_end h, value]

theorem printDecimal_eq_cons (n : Nat) : ∃ k rest, printDecimal n = decimalDigit k :: rest := by
  rw [printDecimal_eq]
  split_ifs
  · exact ⟨n, _, rfl⟩
  · exact ⟨n / 10, _, rfl⟩
  · exact ⟨n / 100, _, rfl⟩

theorem dropBlanks_printDecimal (n : Nat) (text : List Char) :
    (printDecimal n ++ text).dropWhile (· == ' ') = printDecimal n ++ text := by
  obtain ⟨k, rest, digits⟩ := printDecimal_eq_cons n
  obtain ⟨digit, -⟩ := decimalDigit_value k
  rw [digits, List.cons_append, dropBlanks_cons]
  intro blank
  rw [blank] at digit
  exact absurd digit (by decide)

/-! ### Hex pixels -/

theorem hexValue_hexDigit (v place : Nat) : hexValue (hexDigit v place) = some (v / 16 ^ place % 16) := by
  have table : ∀ d < 16, hexValue (hexDigits.getD d '0') = some d := by decide
  exact table _ (Nat.mod_lt _ (by decide))

theorem hexNumber_hexDigit (v place n : Nat) (text : List Char) :
    hexNumber (hexDigit v place :: text) n = hexNumber text (16 * n + v / 16 ^ place % 16) := by
  rw [hexNumber, hexValue_hexDigit]

/-- The six digits of a 24-bit number are read back. -/
theorem hexNumber_sixDigits {v : Nat} (h : v < 2 ^ 24) :
    hexNumber [hexDigit v 5, hexDigit v 4, hexDigit v 3, hexDigit v 2, hexDigit v 1, hexDigit v 0] 0 = some v := by
  simp only [hexNumber_hexDigit]
  rw [hexNumber, Option.some.injEq]
  omega

theorem parseOperand_printPixel (p : Pixel) (text : List Char) :
    parseOperand (printPixel p ++ text) = some (.hex p.toNat, text) := by
  simp only [printPixel, List.cons_append, List.nil_append, parseOperand, hexNumber_sixDigits p.isLt, Option.map_some]

/-! ### Operands and coins -/

/-- A printed triple is read back after its opening bracket. -/
theorem parseTriple_printed {r g b : Nat} (hr : r < 1000) (hg : g < 1000) (hb : b < 1000) {text : List Char}
    (h : StartsAtMark text) :
    parseTriple (printDecimal r ++ ',' :: (printDecimal g ++ ',' :: (printDecimal b ++ ')' :: text))) =
      some (.triple r g b, text) := by
  have close : parseMark ')' (')' :: text) = some text := by
    rw [parseMark_self (by decide), dropBlanks_of_startsAtMark h]
  simp [parseTriple, dropBlanks_printDecimal, parseMark_comma, close,
    parseDecimal_printDecimal hr (startsAtMark_comma _), parseDecimal_printDecimal hg (startsAtMark_comma _),
    parseDecimal_printDecimal hb (startsAtMark_bracket _)]

/-- Every operand in range is read back, up to the mark after it. -/
theorem parseOperand_printOperand {o : SourceOperand} (ho : o.wellFormed = true) {text : List Char}
    (h : StartsAtMark text) : parseOperand (printOperand o ++ text) = some (o, text) := by
  cases o with
  | hex v =>
    have inRange : v < 2 ^ 24 := of_decide_eq_true ho
    rw [printOperand, parseOperand_printPixel, BitVec.toNat_ofNat, Nat.mod_eq_of_lt inRange]
  | triple r g b =>
    obtain ⟨⟨hr, hg⟩, hb⟩ : (r ≤ 255 ∧ g ≤ 255) ∧ b ≤ 255 := by
      simpa [SourceOperand.wellFormed] using ho
    have read := parseTriple_printed (show r < 1000 by omega) (show g < 1000 by omega) (show b < 1000 by omega) h
    simpa [printOperand, parseOperand] using read
  | prev => rfl

theorem dropBlanks_printOperand (o : SourceOperand) (text : List Char) :
    (printOperand o ++ text).dropWhile (· == ' ') = printOperand o ++ text := by
  cases o with
  | hex v => rfl
  | triple r g b => rfl
  | prev => rfl

/-- What a line writes after its operands. -/
def printCoin : Option Nat → List Char
  | none => []
  | some c => ',' :: ' ' :: printDecimal c

theorem startsAtMark_printCoin : ∀ coin, StartsAtMark (printCoin coin)
  | none => startsAtMark_nil
  | some _ => startsAtMark_comma _

theorem parseCoin_printCoin {coin : Option Nat} (h : coinWellFormed coin = true) :
    parseCoin (printCoin coin) = some coin := by
  cases coin with
  | none => rfl
  | some c =>
    have inRange : c ≤ 1 := of_decide_eq_true h
    have blanks : (' ' :: printDecimal c).dropWhile (· == ' ') = printDecimal c := by
      simpa using dropBlanks_printDecimal c []
    have number : parseDecimal (printDecimal c) = some (c, []) := by
      simpa using parseDecimal_printDecimal (show c < 1000 by omega) startsAtMark_nil
    rw [printCoin, parseCoin, dropBlanks_cons (by decide)]
    simp only [parseMark_comma, blanks, Option.bind_eq_bind, Option.bind_some, number]
    rfl

/-! ## Lines read back (R46, R47) -/

theorem printLine_eq (l : SourceLine) : printLine l =
    'B' :: 'L' :: 'E' :: 'N' :: 'D' :: '.' :: (mnemonic l.mode ++ ' ' ::
      (printOperand l.a ++ ',' :: ' ' :: (printOperand l.b ++ printCoin l.coin))) := by
  obtain ⟨mode, a, b, coin⟩ := l
  cases coin <;> simp [printLine, printCoin]

theorem wellFormed_iff {l : SourceLine} : l.wellFormed = true ↔
    l.a.wellFormed = true ∧ l.b.wellFormed = true ∧ coinWellFormed l.coin = true := by
  simp [SourceLine.wellFormed, and_assoc]

/-- The mnemonic of a line is what stands before its first blank. -/
theorem takeWhile_mnemonic (m : Mode) (text : List Char) :
    (mnemonic m ++ ' ' :: text).takeWhile (· != ' ') = mnemonic m := by
  rw [List.takeWhile_append_of_pos (ne_blank_of_mem_mnemonic m)]
  simp

theorem dropWhile_mnemonic (m : Mode) (text : List Char) :
    (mnemonic m ++ ' ' :: text).dropWhile (· != ' ') = ' ' :: text := by
  rw [List.dropWhile_append_of_pos (ne_blank_of_mem_mnemonic m)]
  simp

theorem parseLine_printLine {l : SourceLine} (h : l.wellFormed = true) : parseLine (printLine l) = some l := by
  obtain ⟨ha, hb, hc⟩ := wellFormed_iff.1 h
  have blanks : ∀ o text, (' ' :: (printOperand o ++ text)).dropWhile (· == ' ') = printOperand o ++ text :=
    fun o text => dropBlanks_printOperand o text
  rw [printLine_eq, parseLine]
  simp [takeWhile_mnemonic, dropWhile_mnemonic, modeOfMnemonic_mnemonic, blanks, parseMark_comma,
    parseOperand_printOperand ha (startsAtMark_comma _), parseOperand_printOperand hb (startsAtMark_printCoin _),
    parseCoin_printCoin hc]

/-! ## What a line assembles to (R46, R47) -/

/-- The evaluation a line assembles to, where its numbers are in range. -/
def lineEvaluation (l : SourceLine) : Evaluation where
  mode := l.mode
  a    := assembleOperand l.a
  b    := assembleOperand l.b
  coin := .given (BitVec.ofNat 1 (l.coin.getD 0))

theorem assemble_of_wellFormed {l : SourceLine} (h : l.wellFormed = true) : assemble l = some (lineEvaluation l) :=
  if_pos h

theorem assemble_eq_some {l : SourceLine} {e : Evaluation} :
    assemble l = some e ↔ l.wellFormed = true ∧ lineEvaluation l = e := by
  rw [assemble, Option.ite_none_right_eq_some, Option.some.injEq]
  rfl

theorem exists_assemble_iff (l : SourceLine) : (∃ e, assemble l = some e) ↔ l.wellFormed = true := by
  simp [assemble_eq_some]

/-- An operand in range stands for what it is written as. -/
theorem standsFor_assembleOperand {o : SourceOperand} (h : o.wellFormed = true) : standsFor o (assembleOperand o) := by
  cases o with
  | hex v =>
    have inRange : v < 2 ^ 24 := of_decide_eq_true h
    exact (BitVec.toNat_ofNat v 24).trans (Nat.mod_eq_of_lt inRange)
  | triple r g b =>
    obtain ⟨⟨hr, hg⟩, hb⟩ : (r ≤ 255 ∧ g ≤ 255) ∧ b ≤ 255 := by
      simpa [SourceOperand.wellFormed] using h
    have channel : ∀ n ≤ 255, (BitVec.ofNat 8 n).toNat = n := fun n hn =>
      (BitVec.toNat_ofNat n 8).trans (Nat.mod_eq_of_lt (by omega))
    change standsFor _ (.pixel (pix _ _ _))
    simp [standsFor, channel, hr, hg, hb]
  | prev => trivial

/-- The coin of a line in range: what is written, 0 where nothing is. -/
theorem lineEvaluation_coin {l : SourceLine} (h : coinWellFormed l.coin = true) :
    (l.coin = none → (lineEvaluation l).coin = .given 0) ∧
      ∀ c, l.coin = some c → ∃ v : Coin, (lineEvaluation l).coin = .given v ∧ v.toNat = c := by
  constructor
  · intro omitted
    simp [lineEvaluation, omitted]
  · intro c written
    rw [written] at h
    have inRange : c ≤ 1 := of_decide_eq_true h
    refine ⟨BitVec.ofNat 1 c, by simp [lineEvaluation, written], ?_⟩
    exact (BitVec.toNat_ofNat c 1).trans (Nat.mod_eq_of_lt (by omega))

theorem assemble_meaning {l : SourceLine} {e : Evaluation} (h : assemble l = some e) :
    e.mode = l.mode ∧ standsFor l.a e.a ∧ standsFor l.b e.b ∧ (l.coin = none → e.coin = .given 0) ∧
      ∀ c, l.coin = some c → ∃ v : Coin, e.coin = .given v ∧ v.toNat = c := by
  obtain ⟨wf, rfl⟩ := assemble_eq_some.1 h
  obtain ⟨ha, hb, hc⟩ := wellFormed_iff.1 wf
  exact ⟨rfl, standsFor_assembleOperand ha, standsFor_assembleOperand hb, lineEvaluation_coin hc⟩

/-! ## Programs (R47) -/

theorem mapM_assemble_of_wellFormed {lines : List SourceLine} (h : ∀ l ∈ lines, l.wellFormed = true) :
    lines.mapM assemble = some (lines.map lineEvaluation) := by
  induction lines with
  | nil => rfl
  | cons l rest ih =>
    obtain ⟨hl, hrest⟩ := List.forall_mem_cons.1 h
    simp [assemble_of_wellFormed hl, ih hrest]

theorem wellFormed_of_mem_program {lines : List SourceLine} (h : programWellFormed lines = true) :
    ∀ l ∈ lines, l.wellFormed = true := by
  cases lines with
  | nil => nofun
  | cons first rest => exact List.all_eq_true.1 (Bool.and_eq_true_iff.1 h).2

theorem assembleProgram_of_wellFormed {lines : List SourceLine} (h : programWellFormed lines = true) :
    assembleProgram lines = some (lines.map lineEvaluation) := by
  rw [assembleProgram, if_pos h, mapM_assemble_of_wellFormed (wellFormed_of_mem_program h)]

theorem programWellFormed_of_assembles {lines : List SourceLine} {program : List Evaluation}
    (h : assembleProgram lines = some program) : programWellFormed lines = true :=
  (Option.ite_none_right_eq_some.1 h).1

theorem exists_assembleProgram_iff (lines : List SourceLine) :
    (∃ program, assembleProgram lines = some program) ↔ programWellFormed lines = true :=
  ⟨fun ⟨_, h⟩ => programWellFormed_of_assembles h, fun h => ⟨_, assembleProgram_of_wellFormed h⟩⟩

/-- A program is assembled line by line. -/
theorem map_assemble_of_assembleProgram {lines : List SourceLine} {program : List Evaluation}
    (h : assembleProgram lines = some program) : lines.map assemble = program.map some := by
  have wf := programWellFormed_of_assembles h
  rw [assembleProgram_of_wellFormed wf, Option.some.injEq] at h
  rw [← h, List.map_map]
  exact List.map_congr_left fun l hl => assemble_of_wellFormed (wellFormed_of_mem_program wf l hl)

/-- Settles O50. -/
theorem sourceLinesAreReadAndAssembled : Obligations.SourceLinesAreReadAndAssembled :=
  ⟨fun _ => parseLine_printLine, exists_assemble_iff, fun _ _ => assemble_meaning, exists_assembleProgram_iff,
    fun _ _ => map_assemble_of_assembleProgram⟩

/-! ## The disassembler (R46) -/

theorem modeNumber_modeOfNumber : ∀ m : ModeNumber, modeNumber (modeOfNumber m) = m := by
  decide

theorem sourceLineOf_wellFormed (i : Instr) : (sourceLineOf i).wellFormed = true :=
  wellFormed_iff.2 ⟨decide_eq_true (encodeFields i).a.isLt, decide_eq_true (encodeFields i).b.isLt,
    decide_eq_true (Nat.le_of_lt_succ (encodeFields i).coin.isLt)⟩

/-- An instruction's line stands for the instruction as it is. -/
theorem assemble_sourceLineOf (i : Instr) : assemble (sourceLineOf i) = some (evaluationOf i) := by
  rw [assemble_of_wellFormed (sourceLineOf_wellFormed i)]
  simp [lineEvaluation, sourceLineOf, evaluationOf, assembleOperand]

theorem resolve_evaluationOf (i : Instr) (s : State) : resolve s (evaluationOf i) = some (encodeFields i) :=
  resolve_eq_some.2 ⟨rfl, rfl, (modeNumber_modeOfNumber _).symm, rfl⟩

theorem evaluationOf_injective : Function.Injective evaluationOf := by
  intro i j h
  have tuples := resolve_evaluationOf i State.reset
  rw [h, resolve_evaluationOf j State.reset] at tuples
  exact encodeFields_injective (Option.some.inj tuples).symm

theorem parseLine_disassemble (i : Instr) : parseLine (disassemble i) = some (sourceLineOf i) :=
  parseLine_printLine (sourceLineOf_wellFormed i)

/-- Equal lines are read back as one line, which assembles to one evaluation. -/
theorem disassemble_injective : Function.Injective disassemble := by
  intro i j h
  have lines : sourceLineOf i = sourceLineOf j := by
    rw [← Option.some.injEq, ← parseLine_disassemble, ← parseLine_disassemble, h]
  apply evaluationOf_injective
  rw [← Option.some.injEq, ← assemble_sourceLineOf, ← assemble_sourceLineOf, lines]

/-- Settles O28. -/
theorem disassemblyIsReadBack : Obligations.DisassemblyIsReadBack :=
  ⟨fun i => ⟨_, parseLine_disassemble i, assemble_sourceLineOf i, resolve_evaluationOf i⟩,
    fun _ _ h => disassemble_injective h⟩

end Sys2Proof.Proofs.Encoding

/-! PROOFS. The statements of 40_additive.md: Add, Subtract, AddWrap and SubtractWrap, the fallback of the undefined
mode values, and the laws of the family. -/

namespace Sys2Proof.Proofs.Additive

open Sys2Proof.Machine Sys2Proof.Proofs.Scope Sys2Proof.Proofs.Encoding

/-! ## Modes that act on each channel alone (R9, R10, R43) -/

/-- What a formula gives in a channel, where it stays in range. -/
theorem toNat_onChannel_of_staysInRange {f : Int → Int → Int} (range : StaysInRange f) (x y : Channel) :
    ((onChannel f x y).toNat : Int) = f x.toNat y.toNat := by
  obtain ⟨h0, h1⟩ := range _ _ (exactValue_nonneg x) (exactValue_le x) (exactValue_nonneg y) (exactValue_le y)
  exact toNat_onChannel h0 h1

/-- A mode follows its rule where its number decodes to the instruction and `Blend` is a formula that stays in range,
channel by channel. -/
theorem perChannelRule_of_formula {make : Pixel → Pixel → Coin → Instr} {mode : Nat} {f : Int → Int → Int}
    (small : mode < 16)
    (decodes : ∀ a b coin, decodeFields { mode := BitVec.ofNat 4 mode, a, b, coin } = make a b coin)
    (blends : ∀ a b coin, blend mode a b coin = perChannel f a b) (range : StaysInRange f) :
    PerChannelRule make mode f := by
  intro a b coin
  refine ⟨decodes a b coin, fun s => ?delivered, fun c => ?channel⟩
  case delivered =>
    have delivered := delivers_decodeFields { mode := BitVec.ofNat 4 mode, a, b, coin } s
    rwa [decodes, blendFields, BitVec.toNat_ofNat, Nat.mod_eq_of_lt small] at delivered
  case channel => rw [blends, chan_perChannel, toNat_onChannel_of_staysInRange range]

/-- The formula of a rule is what its mode does to two channel values. -/
theorem toNat_channelFn_of_rule {make : Pixel → Pixel → Coin → Instr} {mode : Nat} {f : Int → Int → Int}
    (rule : PerChannelRule make mode f) (x y : Channel) : ((channelFn mode x y).toNat : Int) = f x.toNat y.toNat := by
  obtain ⟨-, -, channels⟩ := rule (pix x x x) (pix y y y) 0
  simpa [channelFn] using channels .r

theorem chan_perChannel_uniform (f : Int → Int → Int) (x y : Channel) :
    chan (perChannel f (pix x x x) (pix y y y)) .r = onChannel f x y := by
  simp

/-- Every mode but Dissolve treats each channel alone. -/
theorem chan_blend {m : Nat} (h : m ≠ 5) (a b : Pixel) (coin : Coin) (c : ChannelName) :
    chan (blend m a b coin) c = channelFn m (chan a c) (chan b c) := by
  unfold channelFn blend
  split
  case h_6 => exact absurd rfl h
  case h_8 => exact (chan_pix_r _ _ _).symm
  all_goals
    exact (chan_perChannel _ _ _ _).trans (chan_perChannel_uniform _ _ _).symm

theorem pixel_eq_iff {p q : Pixel} : p = q ↔ ∀ c, chan p c = chan q c :=
  ⟨fun h _ => h ▸ rfl, pixel_ext⟩

@[simp] theorem chan_black (c : ChannelName) : chan 0 c = 0 := by
  cases c <;> rfl

section Lift

variable {m : Nat} (h : m ≠ 5)
include h

theorem blend_comm_of_channel (comm : ∀ x y, channelFn m x y = channelFn m y x) (a b : Pixel) (coin : Coin) :
    blend m a b coin = blend m b a coin :=
  pixel_ext fun c => by rw [chan_blend h, chan_blend h, comm]

theorem blend_assoc_of_channel
    (assoc : ∀ x y z, channelFn m (channelFn m x y) z = channelFn m x (channelFn m y z)) (a b c : Pixel)
    (coin : Coin) : blend m (blend m a b coin) c coin = blend m a (blend m b c coin) coin :=
  pixel_ext fun k => by simp only [chan_blend h, assoc]

theorem blend_black_of_channel (identity : ∀ x, channelFn m x 0 = x) (a : Pixel) (coin : Coin) :
    blend m a 0 coin = a :=
  pixel_ext fun c => by rw [chan_blend h, chan_black, identity]

end Lift

/-! ## The rules, and each mode in one channel (R60 to R64) -/

theorem addRule : PerChannelRule .add 0 addFormula :=
  perChannelRule_of_formula (by decide) (fun _ _ _ => rfl) (fun _ _ _ => rfl) addFormula_staysInRange

theorem subtractRule : PerChannelRule .subtract 1 subtractFormula :=
  perChannelRule_of_formula (by decide) (fun _ _ _ => rfl) (fun _ _ _ => rfl) subtractFormula_staysInRange

theorem addWrapRule : PerChannelRule .addWrap 2 addWrapFormula :=
  perChannelRule_of_formula (by decide) (fun _ _ _ => rfl) (fun _ _ _ => rfl) addWrapFormula_staysInRange

theorem subtractWrapRule : PerChannelRule .subtractWrap 3 subtractWrapFormula :=
  perChannelRule_of_formula (by decide) (fun _ _ _ => rfl) (fun _ _ _ => rfl) subtractWrapFormula_staysInRange

theorem rsv14Rule : PerChannelRule .rsv14 14 addFormula :=
  perChannelRule_of_formula (by decide) (fun _ _ _ => rfl) (fun _ _ _ => rfl) addFormula_staysInRange

theorem rsv15Rule : PerChannelRule .rsv15 15 addFormula :=
  perChannelRule_of_formula (by decide) (fun _ _ _ => rfl) (fun _ _ _ => rfl) addFormula_staysInRange

theorem toNat_channelFn_add (x y : Channel) : (channelFn 0 x y).toNat = min (x.toNat + y.toNat) 255 := by
  have formula := toNat_channelFn_of_rule addRule x y
  unfold addFormula at formula
  omega

/-- The natural numbers' own subtraction saturates at 0. -/
theorem toNat_channelFn_subtract (x y : Channel) : (channelFn 1 x y).toNat = x.toNat - y.toNat := by
  have formula := toNat_channelFn_of_rule subtractRule x y
  unfold subtractFormula at formula
  omega

/-- Addition mod 256 is the addition of 8-bit words. -/
@[simp] theorem channelFn_addWrap (x y : Channel) : channelFn 2 x y = x + y := by
  have formula := toNat_channelFn_of_rule addWrapRule x y
  unfold addWrapFormula at formula
  bv_omega

/-- Subtraction mod 256 is the subtraction of 8-bit words. -/
@[simp] theorem channelFn_subtractWrap (x y : Channel) : channelFn 3 x y = x - y := by
  have formula := toNat_channelFn_of_rule subtractWrapRule x y
  unfold subtractWrapFormula at formula
  bv_omega

theorem channelFn_of_undefined_mode {n : Nat} (h : 14 ≤ n) : channelFn n = channelFn 0 := by
  funext x y
  rw [channelFn, channelFn, blend_of_undefined_mode h]

/-! ## Add (R60) -/

theorem channelFn_add_comm (x y : Channel) : channelFn 0 x y = channelFn 0 y x := by
  apply BitVec.eq_of_toNat_eq
  rw [toNat_channelFn_add, toNat_channelFn_add, Nat.add_comm]

theorem toNat_channelFn_add_add (x y z : Channel) :
    (channelFn 0 (channelFn 0 x y) z).toNat = min (x.toNat + y.toNat + z.toNat) 255 := by
  rw [toNat_channelFn_add, toNat_channelFn_add]
  omega

theorem channelFn_add_assoc (x y z : Channel) : channelFn 0 (channelFn 0 x y) z = channelFn 0 x (channelFn 0 y z) := by
  apply BitVec.eq_of_toNat_eq
  rw [toNat_channelFn_add_add, channelFn_add_comm x, toNat_channelFn_add_add]
  omega

@[simp] theorem channelFn_add_black (x : Channel) : channelFn 0 x 0 = x := by
  apply BitVec.eq_of_toNat_eq
  rw [toNat_channelFn_add]
  exact min_eq_left (Nat.le_of_lt_succ x.isLt)

theorem channelFn_add_clamps {x y : Channel} (h : 255 ≤ x.toNat + y.toNat) : channelFn 0 x y = 255 := by
  apply BitVec.eq_of_toNat_eq
  rw [toNat_channelFn_add, min_eq_right h]
  rfl

/-- Settles O1. -/
theorem addSaturatesEachChannel : Obligations.AddSaturatesEachChannel := by
  have black (y : Channel) : channelFn 0 0 y = y := (channelFn_add_comm 0 y).trans (channelFn_add_black y)
  have blackPixel (b : Pixel) (coin : Coin) : blend 0 0 b coin = b :=
    (blend_comm_of_channel (by decide) channelFn_add_comm 0 b coin).trans
      (blend_black_of_channel (by decide) channelFn_add_black b coin)
  have double (x : Channel) : (channelFn 0 x x).toNat = min (2 * x.toNat) 255 := by
    rw [toNat_channelFn_add, Nat.two_mul]
  exact ⟨addRule, channelFn_add_black, black, blackPixel, fun _ _ => channelFn_add_clamps,
    channelFn_add_clamps (by decide), channelFn_add_clamps (by decide), channelFn_add_clamps (by decide),
    channelFn_add_comm, double, by decide, by decide⟩

/-! ## Subtract (R61) -/

@[simp] theorem channelFn_subtract_black (x : Channel) : channelFn 1 x 0 = x :=
  BitVec.eq_of_toNat_eq (toNat_channelFn_subtract x 0)

theorem channelFn_subtract_clamps {x y : Channel} (h : x.toNat ≤ y.toNat) : channelFn 1 x y = 0 := by
  apply BitVec.eq_of_toNat_eq
  rw [toNat_channelFn_subtract, Nat.sub_eq_zero_of_le h]
  rfl

/-- Settles O2. -/
theorem subtractSaturatesEachChannel : Obligations.SubtractSaturatesEachChannel :=
  ⟨subtractRule, channelFn_subtract_black, fun _ => channelFn_subtract_clamps (Nat.zero_le _),
    fun _ => channelFn_subtract_clamps le_rfl, fun _ _ => channelFn_subtract_clamps,
    channelFn_subtract_clamps (by decide), by decide, ⟨127, 128, by decide⟩, channelFn_subtract_black 255,
    by decide, by decide⟩

/-! ## AddWrap (R62) -/

theorem channelFn_addWrap_comm (x y : Channel) : channelFn 2 x y = channelFn 2 y x := by
  rw [channelFn_addWrap, channelFn_addWrap, BitVec.add_comm]

theorem channelFn_addWrap_assoc (x y z : Channel) :
    channelFn 2 (channelFn 2 x y) z = channelFn 2 x (channelFn 2 y z) := by
  simp only [channelFn_addWrap, BitVec.add_assoc]

/-- Settles O3. -/
theorem addWrapIsModular : Obligations.AddWrapIsModular :=
  ⟨addWrapRule, fun x => by simp, by decide, by decide, by decide, by decide, by decide, channelFn_addWrap_comm,
    by decide, by decide⟩

/-! ## SubtractWrap (R63) -/

/-- The two differences are opposite residues. -/
theorem subtractWrap_antisymm (x y : Channel) :
    ((channelFn 3 x y).toNat + (channelFn 3 y x).toNat) % 256 = 0 := by
  have opposite : channelFn 3 x y + channelFn 3 y x = 0 := by
    rw [channelFn_subtractWrap, channelFn_subtractWrap, sub_add_sub_cancel, sub_self]
  exact (BitVec.toNat_add _ _).symm.trans (congrArg BitVec.toNat opposite)

/-- Settles O4. -/
theorem subtractWrapIsModular : Obligations.SubtractWrapIsModular :=
  ⟨subtractWrapRule, fun x => by simp, fun x => by simp, by decide, by decide, by decide, by decide,
    ⟨127, 128, by decide⟩, subtractWrap_antisymm, by decide, by decide⟩

/-! ## The undefined mode values (R64) -/

/-- Settles O5: the fallback is `Blend` at 0. -/
theorem undefinedModesFallBackToAdd : Obligations.UndefinedModesFallBackToAdd :=
  ⟨rsv14Rule, rsv15Rule, by decide, fun _ => blend_of_undefined_mode, by decide, by decide⟩

/-! ## The laws of the family (R65) -/

/-- Black `b` changes no channel in any mode of the family. -/
theorem channelFn_black_of_additive {m : Nat} (h : m ∈ [0, 1, 2, 3, 14, 15]) (x : Channel) : channelFn m x 0 = x := by
  simp only [List.mem_cons, List.not_mem_nil, or_false] at h
  rcases h with rfl | rfl | rfl | rfl | rfl | rfl
  case inl => exact channelFn_add_black x
  case inr.inl => exact channelFn_subtract_black x
  case inr.inr.inl => rw [channelFn_addWrap, add_zero]
  case inr.inr.inr.inl => rw [channelFn_subtractWrap, sub_zero]
  all_goals rw [channelFn_of_undefined_mode (by decide), channelFn_add_black]

/-- The two agree up to the clamp; past it the clamped sum is 255 and the wrapped one is not. -/
theorem channelFn_add_eq_addWrap_iff (x y : Channel) :
    channelFn 0 x y = channelFn 2 x y ↔ x.toNat + y.toNat ≤ 255 := by
  rw [← BitVec.toNat_inj, toNat_channelFn_add, channelFn_addWrap, BitVec.toNat_add]
  omega

theorem channelFn_subtract_eq_subtractWrap_iff (x y : Channel) :
    channelFn 1 x y = channelFn 3 x y ↔ y.toNat ≤ x.toNat := by
  rw [← BitVec.toNat_inj, toNat_channelFn_subtract, channelFn_subtractWrap, BitVec.toNat_sub]
  omega

theorem channelFn_subtract_add_iff (x y : Channel) :
    channelFn 1 (channelFn 0 x y) y = x ↔ x.toNat + y.toNat ≤ 255 := by
  rw [← BitVec.toNat_inj, toNat_channelFn_subtract, toNat_channelFn_add]
  omega

theorem blend_add_eq_addWrap_iff (a b : Pixel) (coin : Coin) :
    blend 0 a b coin = blend 2 a b coin ↔ ∀ c, (chan a c).toNat + (chan b c).toNat ≤ 255 :=
  pixel_eq_iff.trans <| forall_congr' fun c => by
    rw [chan_blend (by decide), chan_blend (by decide), channelFn_add_eq_addWrap_iff]

theorem blend_subtract_eq_subtractWrap_iff (a b : Pixel) (coin : Coin) :
    blend 1 a b coin = blend 3 a b coin ↔ ∀ c, (chan b c).toNat ≤ (chan a c).toNat :=
  pixel_eq_iff.trans <| forall_congr' fun c => by
    rw [chan_blend (by decide), chan_blend (by decide), channelFn_subtract_eq_subtractWrap_iff]

theorem blend_subtract_add_iff (a b : Pixel) (coin : Coin) :
    blend 1 (blend 0 a b coin) b coin = a ↔ ∀ c, (chan a c).toNat + (chan b c).toNat ≤ 255 :=
  pixel_eq_iff.trans <| forall_congr' fun c => by
    rw [chan_blend (by decide), chan_blend (by decide), channelFn_subtract_add_iff]

theorem blend_subtractWrap_addWrap (a b : Pixel) (coin : Coin) : blend 3 (blend 2 a b coin) b coin = a :=
  pixel_ext fun c => by
    rw [chan_blend (by decide), chan_blend (by decide), channelFn_subtractWrap, channelFn_addWrap,
      BitVec.add_sub_cancel]

/-- Settles O16: each law of pixels is the same law of every channel. -/
theorem additiveFamilyLaws : Obligations.AdditiveFamilyLaws := by
  have range : ∀ f ∈ [addFormula, subtractFormula, addWrapFormula, subtractWrapFormula], StaysInRange f := by
    simp only [List.forall_mem_cons]
    exact ⟨addFormula_staysInRange, subtractFormula_staysInRange, addWrapFormula_staysInRange,
      subtractWrapFormula_staysInRange, by simp⟩
  have notDissolve : ∀ m ∈ [0, 1, 2, 3, 14, 15], m ≠ 5 := by decide
  have commAssoc : ∀ m ∈ [0, 2], ∀ a b c coin, blend m a b coin = blend m b a coin ∧
      blend m (blend m a b coin) c coin = blend m a (blend m b c coin) coin := by
    simp only [List.forall_mem_cons]
    exact ⟨fun a b c coin => ⟨blend_comm_of_channel (by decide) channelFn_add_comm a b coin,
        blend_assoc_of_channel (by decide) channelFn_add_assoc a b c coin⟩,
      fun a b c coin => ⟨blend_comm_of_channel (by decide) channelFn_addWrap_comm a b coin,
        blend_assoc_of_channel (by decide) channelFn_addWrap_assoc a b c coin⟩, by simp⟩
  exact ⟨range,
    fun m hm => ⟨⟨0, 0, channelFn_black_of_additive hm 0⟩, 255, 0, channelFn_black_of_additive hm 255⟩,
    fun m hm => blend_black_of_channel (notDissolve m hm) (channelFn_black_of_additive hm),
    blend_add_eq_addWrap_iff, blend_subtract_eq_subtractWrap_iff, blend_subtract_add_iff,
    blend_subtractWrap_addWrap, commAssoc, toNat_channelFn_add_add⟩

end Sys2Proof.Proofs.Additive

/-! PROOFS. The statements of 41_multiply_select.md: Multiply, Dissolve, Average and Set, and the laws of the family. -/

namespace Sys2Proof.Proofs.MultiplySelect

open Sys2Proof.Machine Sys2Proof.Proofs.Scope Sys2Proof.Proofs.Encoding Sys2Proof.Proofs.Additive

/-! ## Multiply (R70) -/

theorem multiplyRule : PerChannelRule .multiply 4 multiplyFormula :=
  perChannelRule_of_formula (by decide) (fun _ _ _ => rfl) (fun _ _ _ => rfl) multiplyFormula_staysInRange

theorem toNat_channelFn_multiply (x y : Channel) : (channelFn 4 x y).toNat = x.toNat * y.toNat / 256 := by
  have formula := toNat_channelFn_of_rule multiplyRule x y
  unfold multiplyFormula shiftDown at formula
  exact_mod_cast formula

theorem channelFn_multiply_comm (x y : Channel) : channelFn 4 x y = channelFn 4 y x := by
  apply BitVec.eq_of_toNat_eq
  rw [toNat_channelFn_multiply, toNat_channelFn_multiply, Nat.mul_comm]

/-- The shift drops every product below 256. -/
theorem channelFn_multiply_eq_zero {x y : Channel} (h : x.toNat * y.toNat < 256) : channelFn 4 x y = 0 := by
  apply BitVec.eq_of_toNat_eq
  rw [toNat_channelFn_multiply, Nat.div_eq_of_lt h]
  rfl

theorem channelFn_multiply_black (x : Channel) : channelFn 4 x 0 = 0 :=
  channelFn_multiply_eq_zero (Nat.zero_lt_succ 255)

theorem channelFn_black_multiply (y : Channel) : channelFn 4 0 y = 0 :=
  (channelFn_multiply_comm 0 y).trans (channelFn_multiply_black y)

/-- A product with 1 is a channel value, so it is below 256. -/
theorem channelFn_one_multiply (y : Channel) : channelFn 4 1 y = 0 :=
  channelFn_multiply_eq_zero (lt_of_eq_of_lt (Nat.one_mul _) y.isLt)

/-- White `b` takes 1 off each channel: `255 * x` is `256 * (x - 1) + (256 - x)`. -/
theorem toNat_channelFn_multiply_white (x : Channel) : (channelFn 4 x 255).toNat = x.toNat - 1 := by
  rw [toNat_channelFn_multiply, show (255 : Channel).toNat = 255 from rfl]
  omega

theorem toNat_channelFn_multiply_le_left (x y : Channel) : (channelFn 4 x y).toNat ≤ x.toNat := by
  rw [toNat_channelFn_multiply]
  exact Nat.div_le_of_le_mul (Nat.mul_comm 256 _ ▸ Nat.mul_le_mul_left _ y.isLt.le)

theorem toNat_channelFn_multiply_le_min (x y : Channel) : (channelFn 4 x y).toNat ≤ min x.toNat y.toNat :=
  le_min (toNat_channelFn_multiply_le_left x y)
    (channelFn_multiply_comm x y ▸ toNat_channelFn_multiply_le_left y x)

/-- The largest product, `255 * 255`, is `256 * 254 + 1`. -/
theorem toNat_channelFn_multiply_le (x y : Channel) : (channelFn 4 x y).toNat ≤ 254 := by
  have product : x.toNat * y.toNat ≤ 255 * 255 :=
    Nat.mul_le_mul (Nat.le_of_lt_succ x.isLt) (Nat.le_of_lt_succ y.isLt)
  rw [toNat_channelFn_multiply]
  omega

theorem blend_multiply_comm (a b : Pixel) (coin : Coin) : blend 4 a b coin = blend 4 b a coin :=
  blend_comm_of_channel (by decide) channelFn_multiply_comm a b coin

theorem blend_multiply_black (a : Pixel) (coin : Coin) : blend 4 a 0 coin = 0 :=
  pixel_ext fun c => by rw [chan_blend (by decide), chan_black, channelFn_multiply_black]

theorem chan_blend_multiply_ne_white (a b : Pixel) (coin : Coin) (c : ChannelName) :
    chan (blend 4 a b coin) c ≠ 255 := by
  intro white
  have bound := toNat_channelFn_multiply_le (chan a c) (chan b c)
  rw [← chan_blend (by decide) a b coin, white] at bound
  exact absurd bound (by decide)

/-- Settles O6. -/
theorem multiplyShiftsProductByEight : Obligations.MultiplyShiftsProductByEight :=
  ⟨multiplyRule, fun x => ⟨channelFn_multiply_black x, channelFn_black_multiply x⟩, blend_multiply_black,
    fun x _ => toNat_channelFn_multiply_white x, channelFn_black_multiply 255, by decide,
    toNat_channelFn_multiply_le, channelFn_one_multiply, by decide, channelFn_multiply_comm,
    toNat_channelFn_multiply_le_min, by decide, by decide⟩

/-! ## Dissolve (R71) -/

theorem decodeFields_dissolve (a b : Pixel) (coin : Coin) :
    decodeFields { mode := 5, a, b, coin } = .dissolve a b coin := rfl

theorem blend_dissolve (a b : Pixel) (coin : Coin) : blend 5 a b coin = if coin = 1 then b else a := rfl

theorem blend_dissolve_one (a b : Pixel) : blend 5 a b 1 = b := by
  rw [blend_dissolve, if_pos rfl]

theorem blend_dissolve_zero (a b : Pixel) : blend 5 a b 0 = a := by
  rw [blend_dissolve, if_neg (by decide)]

theorem blend_dissolve_self (a : Pixel) (coin : Coin) : blend 5 a a coin = a := by
  rw [blend_dissolve, ite_self]

/-- All 24 bits come from one side. -/
theorem blend_dissolve_whole (a b : Pixel) (coin : Coin) : blend 5 a b coin = a ∨ blend 5 a b coin = b := by
  rw [blend_dissolve]
  exact (ite_eq_or_eq (coin = 1) b a).symm

theorem delivers_dissolve (a b : Pixel) (coin : Coin) (s : State) :
    Delivers (.dissolve a b coin) s (blend 5 a b coin) :=
  decodeFields_dissolve a b coin ▸ delivers_decodeFields { mode := 5, a, b, coin } s

/-- No function of the two channels gives a channel of the result: black and white in a channel give either, as the
coin says. -/
theorem dissolve_not_per_channel :
    ¬ ∃ f : Channel → Channel → Channel, ∀ a b coin c, chan (blend 5 a b coin) c = f (chan a c) (chan b c) := by
  rintro ⟨f, perChannel⟩
  have same : chan (blend 5 0 0xFFFFFF 0) .r = chan (blend 5 0 0xFFFFFF 1) .r :=
    (perChannel 0 0xFFFFFF 0 .r).trans (perChannel 0 0xFFFFFF 1 .r).symm
  rw [blend_dissolve_zero, blend_dissolve_one] at same
  exact absurd same (by decide)

/-- Settles O7. -/
theorem dissolveSelectsWholePixel : Obligations.DissolveSelectsWholePixel := by
  have selects (a b : Pixel) (s : State) : Delivers (.dissolve a b 1) s b ∧ Delivers (.dissolve a b 0) s a :=
    ⟨blend_dissolve_one a b ▸ delivers_dissolve a b 1 s, blend_dissolve_zero a b ▸ delivers_dissolve a b 0 s⟩
  have equal (a : Pixel) (coin : Coin) (s : State) : Delivers (.dissolve a a coin) s a := by
    have delivered := delivers_dissolve a a coin s
    rwa [blend_dissolve_self] at delivered
  exact ⟨decodeFields_dissolve, selects, equal, blend_dissolve_whole, blend_dissolve_one _ _, by decide,
    blend_dissolve_zero _ _, by decide⟩

/-! ## Average (R72) -/

theorem averageRule : PerChannelRule .average 6 averageFormula :=
  perChannelRule_of_formula (by decide) (fun _ _ _ => rfl) (fun _ _ _ => rfl) averageFormula_staysInRange

theorem toNat_channelFn_average (x y : Channel) : (channelFn 6 x y).toNat = (x.toNat + y.toNat) / 2 := by
  have formula := toNat_channelFn_of_rule averageRule x y
  unfold averageFormula shiftDown at formula
  exact_mod_cast formula

theorem channelFn_average_comm (x y : Channel) : channelFn 6 x y = channelFn 6 y x := by
  apply BitVec.eq_of_toNat_eq
  rw [toNat_channelFn_average, toNat_channelFn_average, Nat.add_comm]

theorem channelFn_average_self (x : Channel) : channelFn 6 x x = x := by
  apply BitVec.eq_of_toNat_eq
  rw [toNat_channelFn_average]
  omega

/-- Black `b` halves each channel. -/
theorem channelFn_average_black (x : Channel) : channelFn 6 x 0 = x >>> 1 := by
  apply BitVec.eq_of_toNat_eq
  rw [toNat_channelFn_average, BitVec.toNat_ushiftRight, Nat.shiftRight_one]
  rfl

theorem blend_average_comm (a b : Pixel) (coin : Coin) : blend 6 a b coin = blend 6 b a coin :=
  blend_comm_of_channel (by decide) channelFn_average_comm a b coin

/-- Settles O8. -/
theorem averageRoundsDown : Obligations.AverageRoundsDown :=
  ⟨averageRule, channelFn_average_self 255, by decide, by decide, by decide, channelFn_average_self,
    channelFn_average_comm, channelFn_average_black, by decide, by decide⟩

/-! ## Set (R73) -/

theorem decodeFields_set (a b : Pixel) (coin : Coin) :
    decodeFields { mode := 7, a, b, coin } = .set a b coin := rfl

theorem blend_set (a b : Pixel) (coin : Coin) : blend 7 a b coin = b := rfl

theorem delivers_set (a b : Pixel) (coin : Coin) (s : State) : Delivers (.set a b coin) s b :=
  decodeFields_set a b coin ▸ delivers_decodeFields { mode := 7, a, b, coin } s

theorem channelFn_set (x y : Channel) : channelFn 7 x y = y := by
  rw [channelFn, blend_set, chan_pix_r]

/-- Settles O9. -/
theorem setReplacesByLayer : Obligations.SetReplacesByLayer :=
  ⟨decodeFields_set, delivers_set, blend_set, by decide⟩

/-! ## The laws of the family (R74) -/

/-- White `a` and black `b` show that black is no identity. -/
theorem blend_white_black_ne : ∀ m ∈ [4, 6, 7], blend m 0xFFFFFF 0 0 ≠ 0xFFFFFF := by
  decide

/-- Settles O17. -/
theorem multiplySelectFamilyLaws : Obligations.MultiplySelectFamilyLaws := by
  have black (a : Pixel) (coin : Coin) : blend 4 a 0 coin = 0 ∧ blend 4 0 a coin = 0 :=
    ⟨blend_multiply_black a coin, (blend_multiply_comm 0 a coin).trans (blend_multiply_black a coin)⟩
  have comm : ∀ m ∈ [4, 6], ∀ a b coin, blend m a b coin = blend m b a coin := by
    simp only [List.forall_mem_cons]
    exact ⟨blend_multiply_comm, blend_average_comm, by simp⟩
  have setNotComm : blend 7 0 0xFFFFFF 0 ≠ blend 7 0xFFFFFF 0 0 := by
    rw [blend_set, blend_set]
    decide
  have dissolveTakesBlack : blend 5 0xFFFFFF 0 1 ≠ 0xFFFFFF := by
    rw [blend_dissolve_one]
    decide
  exact ⟨chan_blend_multiply_ne_white, black, comm, ⟨_, _, setNotComm⟩, by decide, by decide, by decide, by decide,
    fun m hm => ⟨_, blend_white_black_ne m hm⟩, fun a => blend_dissolve_zero a 0, ⟨_, dissolveTakesBlack⟩,
    fun x _ => toNat_channelFn_multiply_white x, fun x => toNat_channelFn_average x 255, fun _ => chan_blend,
    dissolve_not_per_channel, channelFn_set⟩

end Sys2Proof.Proofs.MultiplySelect

/-! PROOFS. The statements of 42_screen_minmax.md: Screen, Lighten, Darken and Difference, the laws of the family, and
the modes in which black `b` is an identity. -/

namespace Sys2Proof.Proofs.ScreenMinMax

open Sys2Proof.Machine Sys2Proof.Proofs.Scope Sys2Proof.Proofs.Encoding Sys2Proof.Proofs.Additive
  Sys2Proof.Proofs.MultiplySelect

/-! ## Screen (R80) -/

theorem screenRule : PerChannelRule .screen 8 screenFormula :=
  perChannelRule_of_formula (by decide) (fun _ _ _ => rfl) (fun _ _ _ => rfl) screenFormula_staysInRange

/-- Inverting every bit of a channel takes it off 255. -/
theorem toNat_not_channel (x : Channel) : ((~~~x).toNat : Int) = 255 - x.toNat := by
  rw [BitVec.toNat_not]
  omega

/-- Screen is Multiply between inverters, so each fact of Screen is a fact of Multiply. -/
theorem channelFn_screen (x y : Channel) : channelFn 8 x y = ~~~ channelFn 4 (~~~x) (~~~y) := by
  have inverted : ((~~~ channelFn 4 (~~~x) (~~~y)).toNat : Int) = screenFormula x.toNat y.toNat := by
    rw [toNat_not_channel, toNat_channelFn_of_rule multiplyRule, toNat_not_channel, toNat_not_channel]
    rfl
  apply BitVec.eq_of_toNat_eq
  exact_mod_cast (toNat_channelFn_of_rule screenRule x y).trans inverted.symm

theorem channelFn_screen_comm (x y : Channel) : channelFn 8 x y = channelFn 8 y x := by
  rw [channelFn_screen, channelFn_screen, channelFn_multiply_comm]

/-- A product never reaches 255, so its inverse never reaches 0. -/
theorem one_le_toNat_channelFn_screen (x y : Channel) : 1 ≤ (channelFn 8 x y).toNat := by
  have product := toNat_channelFn_multiply_le (~~~x) (~~~y)
  have inverse := toNat_not_channel (channelFn 4 (~~~x) (~~~y))
  rw [channelFn_screen]
  omega

/-- Black `b` multiplies by white, which takes 1 off the inverse. -/
theorem toNat_channelFn_screen_black {x : Channel} (h : x.toNat ≤ 254) : (channelFn 8 x 0).toNat = x.toNat + 1 := by
  have product : (channelFn 4 (~~~x) (~~~0)).toNat = (~~~x).toNat - 1 := toNat_channelFn_multiply_white (~~~x)
  have inverse := toNat_not_channel (channelFn 4 (~~~x) (~~~0))
  have operand := toNat_not_channel x
  rw [channelFn_screen]
  omega

/-- White `b` multiplies by black. -/
theorem channelFn_screen_white (x : Channel) : channelFn 8 x 255 = 255 := by
  have product : channelFn 4 (~~~x) (~~~255) = 0 := channelFn_multiply_black (~~~x)
  rw [channelFn_screen, product]
  rfl

theorem channelFn_white_screen (y : Channel) : channelFn 8 255 y = 255 :=
  (channelFn_screen_comm 255 y).trans (channelFn_screen_white y)

theorem max_le_toNat_channelFn_screen (x y : Channel) : max x.toNat y.toNat ≤ (channelFn 8 x y).toNat := by
  have product := toNat_channelFn_multiply_le_min (~~~x) (~~~y)
  have inverse := toNat_not_channel (channelFn 4 (~~~x) (~~~y))
  have left := toNat_not_channel x
  have right := toNat_not_channel y
  rw [channelFn_screen]
  omega

/-- Settles O10. -/
theorem screenInvertsProductOfInverses : Obligations.ScreenInvertsProductOfInverses := by
  have black (x : Channel) (h : x.toNat ≤ 254) :
      (channelFn 8 x 0).toNat = x.toNat + 1 ∧ (channelFn 8 0 x).toNat = x.toNat + 1 :=
    ⟨toNat_channelFn_screen_black h, channelFn_screen_comm x 0 ▸ toNat_channelFn_screen_black h⟩
  exact ⟨screenRule, by decide, one_le_toNat_channelFn_screen, black, channelFn_white_screen 0,
    fun x => ⟨channelFn_screen_white x, channelFn_white_screen x⟩, channelFn_screen_comm, by decide,
    max_le_toNat_channelFn_screen, by decide, by decide⟩

/-! ## Lighten (R81) -/

theorem lightenRule : PerChannelRule .lighten 9 lightenFormula :=
  perChannelRule_of_formula (by decide) (fun _ _ _ => rfl) (fun _ _ _ => rfl) lightenFormula_staysInRange

theorem toNat_channelFn_lighten (x y : Channel) : (channelFn 9 x y).toNat = max x.toNat y.toNat := by
  have formula := toNat_channelFn_of_rule lightenRule x y
  unfold lightenFormula at formula
  exact_mod_cast formula

theorem channelFn_lighten_comm (x y : Channel) : channelFn 9 x y = channelFn 9 y x := by
  apply BitVec.eq_of_toNat_eq
  rw [toNat_channelFn_lighten, toNat_channelFn_lighten, max_comm]

theorem channelFn_lighten_assoc (x y z : Channel) :
    channelFn 9 (channelFn 9 x y) z = channelFn 9 x (channelFn 9 y z) := by
  apply BitVec.eq_of_toNat_eq
  simp only [toNat_channelFn_lighten, max_assoc]

theorem channelFn_lighten_of_le {x y : Channel} (h : x.toNat ≤ y.toNat) : channelFn 9 x y = y := by
  apply BitVec.eq_of_toNat_eq
  rw [toNat_channelFn_lighten, max_eq_right h]

theorem channelFn_lighten_self (x : Channel) : channelFn 9 x x = x :=
  channelFn_lighten_of_le le_rfl

theorem channelFn_black_lighten (y : Channel) : channelFn 9 0 y = y :=
  channelFn_lighten_of_le (Nat.zero_le _)

theorem channelFn_lighten_black (x : Channel) : channelFn 9 x 0 = x :=
  (channelFn_lighten_comm x 0).trans (channelFn_black_lighten x)

theorem channelFn_lighten_white (x : Channel) : channelFn 9 x 255 = 255 :=
  channelFn_lighten_of_le (Nat.le_of_lt_succ x.isLt)

theorem channelFn_white_lighten (y : Channel) : channelFn 9 255 y = 255 :=
  (channelFn_lighten_comm 255 y).trans (channelFn_lighten_white y)

/-- Settles O11. -/
theorem lightenIsChannelMaximum : Obligations.LightenIsChannelMaximum :=
  ⟨lightenRule, by decide, fun x => ⟨channelFn_lighten_black x, channelFn_black_lighten x⟩,
    fun x => ⟨channelFn_lighten_white x, channelFn_white_lighten x⟩, channelFn_lighten_self, channelFn_lighten_comm,
    by decide, by decide⟩

/-! ## Darken (R82) -/

theorem darkenRule : PerChannelRule .darken 10 darkenFormula :=
  perChannelRule_of_formula (by decide) (fun _ _ _ => rfl) (fun _ _ _ => rfl) darkenFormula_staysInRange

theorem toNat_channelFn_darken (x y : Channel) : (channelFn 10 x y).toNat = min x.toNat y.toNat := by
  have formula := toNat_channelFn_of_rule darkenRule x y
  unfold darkenFormula at formula
  exact_mod_cast formula

theorem channelFn_darken_comm (x y : Channel) : channelFn 10 x y = channelFn 10 y x := by
  apply BitVec.eq_of_toNat_eq
  rw [toNat_channelFn_darken, toNat_channelFn_darken, min_comm]

theorem channelFn_darken_assoc (x y z : Channel) :
    channelFn 10 (channelFn 10 x y) z = channelFn 10 x (channelFn 10 y z) := by
  apply BitVec.eq_of_toNat_eq
  simp only [toNat_channelFn_darken, min_assoc]

theorem channelFn_darken_of_le {x y : Channel} (h : x.toNat ≤ y.toNat) : channelFn 10 x y = x := by
  apply BitVec.eq_of_toNat_eq
  rw [toNat_channelFn_darken, min_eq_left h]

theorem channelFn_darken_self (x : Channel) : channelFn 10 x x = x :=
  channelFn_darken_of_le le_rfl

theorem channelFn_black_darken (y : Channel) : channelFn 10 0 y = 0 :=
  channelFn_darken_of_le (Nat.zero_le _)

theorem channelFn_darken_black (x : Channel) : channelFn 10 x 0 = 0 :=
  (channelFn_darken_comm x 0).trans (channelFn_black_darken x)

theorem channelFn_darken_white (x : Channel) : channelFn 10 x 255 = x :=
  channelFn_darken_of_le (Nat.le_of_lt_succ x.isLt)

theorem channelFn_white_darken (y : Channel) : channelFn 10 255 y = y :=
  (channelFn_darken_comm 255 y).trans (channelFn_darken_white y)

theorem blend_darken_black (a : Pixel) (coin : Coin) : blend 10 a 0 coin = 0 :=
  pixel_ext fun c => by rw [chan_blend (by decide), chan_black, channelFn_darken_black]

/-- Settles O12. -/
theorem darkenIsChannelMinimum : Obligations.DarkenIsChannelMinimum :=
  ⟨darkenRule, fun x => ⟨channelFn_darken_white x, channelFn_white_darken x⟩,
    fun x => ⟨channelFn_darken_black x, channelFn_black_darken x⟩, blend_darken_black, channelFn_darken_self,
    channelFn_darken_comm, by decide, by decide⟩

/-! ## Difference (R83) -/

theorem differenceFormula_eq_abs : differenceFormula = fun x y => |x - y| := by
  funext x y
  rw [differenceFormula, Int.natCast_natAbs]

theorem differenceRule : PerChannelRule .difference 11 differenceFormula :=
  perChannelRule_of_formula (by decide) (fun _ _ _ => rfl) (fun _ _ _ => rfl) differenceFormula_staysInRange

theorem toNat_channelFn_difference (x y : Channel) : (channelFn 11 x y).toNat = Nat.dist x.toNat y.toNat := by
  have formula := toNat_channelFn_of_rule differenceRule x y
  unfold differenceFormula at formula
  unfold Nat.dist
  omega

theorem channelFn_difference_comm (x y : Channel) : channelFn 11 x y = channelFn 11 y x := by
  apply BitVec.eq_of_toNat_eq
  rw [toNat_channelFn_difference, toNat_channelFn_difference, Nat.dist_comm]

theorem channelFn_difference_self (x : Channel) : channelFn 11 x x = 0 := by
  apply BitVec.eq_of_toNat_eq
  rw [toNat_channelFn_difference, Nat.dist_self]
  rfl

theorem channelFn_difference_black (x : Channel) : channelFn 11 x 0 = x := by
  apply BitVec.eq_of_toNat_eq
  rw [toNat_channelFn_difference]
  exact Nat.dist_zero_right _

theorem channelFn_black_difference (y : Channel) : channelFn 11 0 y = y :=
  (channelFn_difference_comm 0 y).trans (channelFn_difference_black y)

/-- White `b` inverts each channel. -/
theorem toNat_channelFn_difference_white (x : Channel) : (channelFn 11 x 255).toNat = 255 - x.toNat := by
  rw [toNat_channelFn_difference]
  exact Nat.dist_eq_sub_of_le (Nat.le_of_lt_succ x.isLt)

/-- Settles O13. -/
theorem differenceIsAbsolute : Obligations.DifferenceIsAbsolute :=
  ⟨differenceFormula_eq_abs ▸ differenceRule, channelFn_difference_self,
    fun x => ⟨channelFn_difference_black x, channelFn_black_difference x⟩, toNat_channelFn_difference_white,
    by decide, by decide, channelFn_difference_comm, channelFn_black_difference 255, by decide, by decide, by decide⟩

/-! ## Where black `b` is an identity (R84, R92) -/

theorem colorDodgeRule : PerChannelRule .colorDodge 13 colorDodgeFormula :=
  perChannelRule_of_formula (by decide) (fun _ _ _ => rfl) (fun _ _ _ => rfl) colorDodgeFormula_staysInRange

/-- Black `b` divides by 255: `256 * x` is `255 * x + x`, and for `x` = 255 the quotient 256 saturates. -/
theorem channelFn_colorDodge_black (x : Channel) : channelFn 13 x 0 = x := by
  have formula : ((channelFn 13 x 0).toNat : Int) = min 255 ((x.toNat : Int) * 256 / 255) :=
    toNat_channelFn_of_rule colorDodgeRule x 0
  apply BitVec.eq_of_toNat_eq
  omega

theorem channelFn_black_of_mem {m : Nat} (h : m ∈ [0, 1, 2, 3, 9, 11, 13]) (x : Channel) : channelFn m x 0 = x := by
  have additiveOr : m ∈ [0, 1, 2, 3, 14, 15] ∨ m = 9 ∨ m = 11 ∨ m = 13 := by
    simp only [List.mem_cons, List.not_mem_nil, or_false] at h ⊢
    omega
  obtain additive | rfl | rfl | rfl := additiveOr
  · exact channelFn_black_of_additive additive x
  · exact channelFn_lighten_black x
  · exact channelFn_difference_black x
  · exact channelFn_colorDodge_black x

/-- The pixel 0x000001 under black, with coin 1, is changed by every other mode. -/
theorem mem_of_blend_one_black : ∀ m < 14, blend m 1 0 1 = 1 → m ∈ [0, 1, 2, 3, 9, 11, 13] := by
  decide

theorem blend_black_iff {m : Nat} (h : m < 14) :
    (∀ a coin, blend m a 0 coin = a) ↔ m ∈ [0, 1, 2, 3, 9, 11, 13] := by
  have notDissolve : ∀ m ∈ [0, 1, 2, 3, 9, 11, 13], m ≠ 5 := by decide
  exact ⟨fun identity => mem_of_blend_one_black m h (identity 1 1),
    fun member => blend_black_of_channel (notDissolve m member) (channelFn_black_of_mem member)⟩

/-! ## The laws of the family (R84) -/

theorem blend_self_of_channel {m : Nat} (h : m ≠ 5) (idempotent : ∀ x, channelFn m x x = x) (a : Pixel)
    (coin : Coin) : blend m a a coin = a :=
  pixel_ext fun c => by rw [chan_blend h, idempotent]

/-- The larger and the smaller of two channels are the two channels. -/
theorem lighten_darken_operands (x y : Channel) :
    (channelFn 9 x y = x ∧ channelFn 10 x y = y) ∨ (channelFn 9 x y = y ∧ channelFn 10 x y = x) := by
  obtain h | h := le_total x.toNat y.toNat
  · exact .inr ⟨channelFn_lighten_of_le h, channelFn_darken_of_le h⟩
  · rw [channelFn_lighten_comm, channelFn_darken_comm]
    exact .inl ⟨channelFn_lighten_of_le h, channelFn_darken_of_le h⟩

/-- Two ones give 0, which stands 2 from 2; 1 stands 1 from 2, and so 0 from the other 1. -/
theorem difference_not_assoc : channelFn 11 (channelFn 11 1 1) 2 ≠ channelFn 11 1 (channelFn 11 1 2) := by
  decide

/-- Settles O18. -/
theorem screenMinMaxFamilyLaws : Obligations.ScreenMinMaxFamilyLaws := by
  have lattice : ∀ m ∈ [9, 10], ∀ a b c coin, blend m a a coin = a ∧ blend m a b coin = blend m b a coin ∧
      blend m (blend m a b coin) c coin = blend m a (blend m b c coin) coin := by
    simp only [List.forall_mem_cons]
    exact ⟨fun a b c coin => ⟨blend_self_of_channel (by decide) channelFn_lighten_self a coin,
        blend_comm_of_channel (by decide) channelFn_lighten_comm a b coin,
        blend_assoc_of_channel (by decide) channelFn_lighten_assoc a b c coin⟩,
      fun a b c coin => ⟨blend_self_of_channel (by decide) channelFn_darken_self a coin,
        blend_comm_of_channel (by decide) channelFn_darken_comm a b coin,
        blend_assoc_of_channel (by decide) channelFn_darken_assoc a b c coin⟩, by simp⟩
  have comm : ∀ m ∈ [8, 11], ∀ a b coin, blend m a b coin = blend m b a coin := by
    simp only [List.forall_mem_cons]
    exact ⟨blend_comm_of_channel (by decide) channelFn_screen_comm,
      blend_comm_of_channel (by decide) channelFn_difference_comm, by simp⟩
  exact ⟨lattice, lighten_darken_operands, comm, by decide, by decide, ⟨_, _, _, difference_not_assoc⟩,
    fun _ => toNat_channelFn_screen_black, blend_darken_black, fun _ => blend_black_iff⟩

end Sys2Proof.Proofs.ScreenMinMax

/-! PROOFS. The statements of 43_overlay_dodge.md: Overlay and ColorDodge, and the laws of the family. -/

namespace Sys2Proof.Proofs.OverlayDodge

open Sys2Proof.Machine Sys2Proof.Proofs.Scope Sys2Proof.Proofs.Additive Sys2Proof.Proofs.ScreenMinMax

/-! ## Overlay (R90) -/

theorem overlayRule : PerChannelRule .overlay 12 overlayFormula :=
  perChannelRule_of_formula (by decide) (fun _ _ _ => rfl) (fun _ _ _ => rfl) overlayFormula_staysInRange

/-- Inverting both operands takes the upper branch to the lower one and inverts the result. -/
theorem overlayFormula_of_bright {x : Int} (h : 128 ≤ x) (y : Int) :
    overlayFormula x y = 255 - overlayFormula (255 - x) (255 - y) := by
  unfold overlayFormula
  rw [if_neg (by omega), if_pos (by omega)]

theorem toNat_channelFn_overlay_of_dark {x : Channel} (h : x.toNat ≤ 127) (y : Channel) :
    (channelFn 12 x y).toNat = 2 * x.toNat * y.toNat / 256 := by
  have formula := toNat_channelFn_of_rule overlayRule x y
  rw [overlayFormula, if_pos (by omega), shiftDown] at formula
  exact_mod_cast formula

/-- On a bright base Overlay is Overlay on a dark one between inverters, so each fact of the upper branch is a fact of
the lower. -/
theorem channelFn_overlay_of_bright {x : Channel} (h : 128 ≤ x.toNat) (y : Channel) :
    channelFn 12 x y = ~~~ channelFn 12 (~~~x) (~~~y) := by
  have inverted : ((~~~ channelFn 12 (~~~x) (~~~y)).toNat : Int) = overlayFormula x.toNat y.toNat := by
    rw [toNat_not_channel, toNat_channelFn_of_rule overlayRule, toNat_not_channel, toNat_not_channel,
      overlayFormula_of_bright (x := x.toNat) (by omega)]
  apply BitVec.eq_of_toNat_eq
  exact_mod_cast (toNat_channelFn_of_rule overlayRule x y).trans inverted.symm

theorem toNat_not_of_bright {x : Channel} (h : 128 ≤ x.toNat) : (~~~x).toNat ≤ 127 := by
  have inverse := toNat_not_channel x
  omega

theorem toNat_channelFn_overlay_of_bright {x : Channel} (h : 128 ≤ x.toNat) (y : Channel) :
    (channelFn 12 x y).toNat = 255 - 2 * (255 - x.toNat) * (255 - y.toNat) / 256 := by
  have dark := toNat_channelFn_overlay_of_dark (toNat_not_of_bright h) (~~~y)
  rw [channelFn_overlay_of_bright h, BitVec.toNat_not, dark, BitVec.toNat_not, BitVec.toNat_not]

/-- The largest lower product, `2 * 127 * 255`, is `256 * 253 + 2`. -/
theorem toNat_channelFn_overlay_le_of_dark {x : Channel} (h : x.toNat ≤ 127) (y : Channel) :
    (channelFn 12 x y).toNat ≤ 253 := by
  have product : 2 * x.toNat * y.toNat ≤ 2 * 127 * 255 :=
    Nat.mul_le_mul (Nat.mul_le_mul_left 2 h) (Nat.le_of_lt_succ y.isLt)
  rw [toNat_channelFn_overlay_of_dark h]
  omega

theorem two_le_toNat_channelFn_overlay_of_bright {x : Channel} (h : 128 ≤ x.toNat) (y : Channel) :
    2 ≤ (channelFn 12 x y).toNat := by
  have dark := toNat_channelFn_overlay_le_of_dark (toNat_not_of_bright h) (~~~y)
  have inverse := toNat_not_channel (channelFn 12 (~~~x) (~~~y))
  rw [channelFn_overlay_of_bright h]
  omega

theorem channelFn_overlay_black_of_dark {x : Channel} (h : x.toNat ≤ 127) : channelFn 12 x 0 = 0 := by
  apply BitVec.eq_of_toNat_eq
  exact (toNat_channelFn_overlay_of_dark h 0).trans (Nat.zero_div 256)

theorem channelFn_black_overlay (y : Channel) : channelFn 12 0 y = 0 := by
  apply BitVec.eq_of_toNat_eq
  rw [toNat_channelFn_overlay_of_dark (by decide), show (0 : Channel).toNat = 0 from rfl, Nat.mul_zero, Nat.zero_mul]

theorem channelFn_white_overlay (y : Channel) : channelFn 12 255 y = 255 := by
  have black : channelFn 12 (~~~255) (~~~y) = 0 := channelFn_black_overlay (~~~y)
  rw [channelFn_overlay_of_bright (by decide), black]
  rfl

/-- Doubled and multiplied by 128, a dark base is shifted up by 8, and the shift down gives it back. -/
theorem channelFn_overlay_half_of_dark {x : Channel} (h : x.toNat ≤ 127) : channelFn 12 x 128 = x := by
  have formula : (channelFn 12 x 128).toNat = 2 * x.toNat * 128 / 256 := toNat_channelFn_overlay_of_dark h 128
  apply BitVec.eq_of_toNat_eq
  omega

/-- The inverse `d` of a bright base is multiplied by 127, not 128, and `254 * d` shifted down by 8 is below `d` unless
`d` is 0. -/
theorem eq_white_of_channelFn_overlay_half {x : Channel} (h : 128 ≤ x.toNat) (fixed : channelFn 12 x 128 = x) :
    x = 255 := by
  have formula : (channelFn 12 x 128).toNat = 255 - 2 * (255 - x.toNat) * 127 / 256 :=
    toNat_channelFn_overlay_of_bright h 128
  rw [fixed] at formula
  have bound := x.isLt
  apply BitVec.eq_of_toNat_eq
  change x.toNat = 255
  omega

theorem channelFn_overlay_half_iff (x : Channel) : channelFn 12 x 128 = x ↔ x.toNat ≤ 127 ∨ x = 255 := by
  constructor
  · intro fixed
    obtain dark | bright := Nat.lt_or_ge x.toNat 128
    · exact .inl (Nat.le_of_lt_succ dark)
    · exact .inr (eq_white_of_channelFn_overlay_half bright fixed)
  · rintro (dark | rfl)
    · exact channelFn_overlay_half_of_dark dark
    · exact channelFn_white_overlay 128

/-- Settles O14. -/
theorem overlayGatedOnBase : Obligations.OverlayGatedOnBase :=
  ⟨overlayRule, fun _ y h => toNat_channelFn_overlay_le_of_dark h y, fun _ => channelFn_overlay_black_of_dark,
    by decide, fun x => (channelFn_overlay_half_iff x).mpr,
    fun _ y h => two_le_toNat_channelFn_overlay_of_bright h y, by decide, by decide, by decide, by decide, by decide,
    by decide, fun y => ⟨channelFn_black_overlay y, channelFn_white_overlay y⟩, by decide, by decide,
    fun _ h => toNat_channelFn_overlay_of_bright h 0, by decide, by decide⟩

/-! ## ColorDodge (R91) -/

/-- The guard leaves a divisor of at least 1. -/
theorem one_le_inverse_of_ne_white {y : Channel} (h : y ≠ 255) : 1 ≤ 255 - y.toNat := by
  have value : y.toNat ≠ 255 := fun white => h (BitVec.eq_of_toNat_eq white)
  have bound := y.isLt
  omega

theorem ne_white_of_le {y : Channel} (h : y.toNat ≤ 254) : y ≠ 255 := by
  rintro rfl
  exact absurd h (by decide)

theorem channelFn_colorDodge_white (x : Channel) : channelFn 13 x 255 = 255 := by
  have formula : ((channelFn 13 x 255).toNat : Int) = 255 := toNat_channelFn_of_rule colorDodgeRule x 255
  apply BitVec.eq_of_toNat_eq
  exact_mod_cast formula

theorem toNat_channelFn_colorDodge {y : Channel} (h : y ≠ 255) (x : Channel) :
    (channelFn 13 x y).toNat = min 255 (x.toNat * 256 / (255 - y.toNat)) := by
  have divisor := one_le_inverse_of_ne_white h
  have inverse : (255 : Int) - y.toNat = ((255 - y.toNat : Nat) : Int) := by omega
  have formula := toNat_channelFn_of_rule colorDodgeRule x y
  rw [colorDodgeFormula, if_neg (by omega), inverse] at formula
  exact_mod_cast formula

theorem channelFn_black_colorDodge {y : Channel} (h : y ≠ 255) : channelFn 13 0 y = 0 := by
  apply BitVec.eq_of_toNat_eq
  rw [toNat_channelFn_colorDodge h, show (0 : Channel).toNat = 0 from rfl, Nat.zero_mul, Nat.zero_div, Nat.min_zero]

/-- Under 254 the divisor is 1, and the quotient `256 * x` saturates unless `x` is 0. -/
theorem channelFn_colorDodge_saturates {x : Channel} (h : 1 ≤ x.toNat) : channelFn 13 x 254 = 255 := by
  have formula : (channelFn 13 x 254).toNat = min 255 (x.toNat * 256 / 1) :=
    toNat_channelFn_colorDodge (by decide) x
  apply BitVec.eq_of_toNat_eq
  change (channelFn 13 x 254).toNat = 255
  omega

/-- The quotient is at most the dividend. -/
theorem dodge_quotient_le (x y : Channel) : x.toNat * 256 / (255 - y.toNat) ≤ 65280 :=
  (Nat.div_le_self _ _).trans (Nat.mul_le_mul_right 256 (Nat.le_of_lt_succ x.isLt))

theorem le_toNat_channelFn_colorDodge (x y : Channel) : x.toNat ≤ (channelFn 13 x y).toNat := by
  have bound : x.toNat ≤ 255 := Nat.le_of_lt_succ x.isLt
  obtain rfl | unguarded := eq_or_ne y 255
  · rw [channelFn_colorDodge_white]
    exact bound
  · have product : x.toNat * (255 - y.toNat) ≤ x.toNat * 256 := Nat.mul_le_mul_left _ (by omega)
    rw [toNat_channelFn_colorDodge unguarded]
    exact le_min bound ((Nat.le_div_iff_mul_le (one_le_inverse_of_ne_white unguarded)).mpr product)

theorem blend_colorDodge_black (a : Pixel) (coin : Coin) : blend 13 a 0 coin = a :=
  blend_black_of_channel (by decide) channelFn_colorDodge_black a coin

/-- A base of 0 under 1 stays 0, and a base of 1 under black stays 1. -/
theorem colorDodge_not_comm : channelFn 13 0 1 ≠ channelFn 13 1 0 := by
  decide

/-- Settles O15. -/
theorem colorDodgeGuardedOnBlend : Obligations.ColorDodgeGuardedOnBlend :=
  ⟨colorDodgeRule, fun _ => one_le_inverse_of_ne_white, channelFn_colorDodge_white, channelFn_colorDodge_black,
    blend_colorDodge_black, fun _ h => channelFn_black_colorDodge (ne_white_of_le h),
    fun _ => channelFn_colorDodge_saturates, fun x y _ => dodge_quotient_le x y, by decide, by decide,
    ⟨_, _, colorDodge_not_comm⟩, by decide, by decide⟩

/-! ## The laws of the family (R92) -/

/-- Settles O19. -/
theorem overlayDodgeFamilyLaws : Obligations.OverlayDodgeFamilyLaws :=
  ⟨overlayFormula_staysInRange, colorDodgeFormula_staysInRange, blend_colorDodge_black, ⟨1, by decide⟩,
    channelFn_overlay_half_iff, fun y => ⟨channelFn_black_overlay y, channelFn_white_overlay y⟩,
    le_toNat_channelFn_colorDodge⟩

end Sys2Proof.Proofs.OverlayDodge

/-! PROOFS. The statement of 60_exceptions.md: nothing the block can be given makes it fail to answer. -/

namespace Sys2Proof.Proofs.Exceptions

open Sys2Proof.Machine Sys2Proof.Proofs.BlockState Sys2Proof.Proofs.Additive Sys2Proof.Proofs.OverlayDodge

/-! ## Every step answers (R100) -/

/-- There is no third outcome, since no reason for a fault exists. -/
theorem next_or_refused : ∀ o : Host.Outcome State Fault Refusal, (∃ t, o = .next t) ∨ ∃ r, o = .refused r
  | .next t => .inl ⟨t, rfl⟩
  | .fault r => nomatch r
  | .refused r => .inr ⟨r, rfl⟩

/-- A defined control line is low or high. -/
theorem eq_driven_of_defined {l : Lines 1} (h : l.undef = 0) : l = driven 0 ∨ l = driven 1 := by
  have bit : ∀ v : BitVec 1, v = 0 ∨ v = 1 := by decide
  obtain ⟨v, undef⟩ := l
  cases h
  exact (bit v).imp (congrArg driven) (congrArg driven)

/-- With no stage the operands are evaluated; with stages the control lines choose a stopped clock or one of three edges,
and each of them answers. -/
theorem step_of_allDefined {s : State} {p : Ports} (h : p.allDefined) : ∃ t, step (s.withLines p) = .next t := by
  obtain ⟨data, clk, rst, inValid⟩ := h
  by_cases hs : s.stages = []
  · exact ⟨_, step_combinational hs data⟩
  obtain stopped | clock := eq_driven_of_defined clk
  · exact (step_stopped hs stopped).imp fun _ => And.left
  obtain noReset | reset := eq_driven_of_defined rst
  · obtain invalid | valid := eq_driven_of_defined inValid
    · obtain ⟨t, -, answers, -⟩ := step_empty_edge hs clock noReset invalid
      exact ⟨t, answers⟩
    · exact (step_presenting_edge hs clock noReset valid data).imp fun _ => And.left
  · exact (step_reset_edge hs clock reset).imp fun _ => And.left

/-! ## The guarded division (R91, R100) -/

theorem colorDodgeFormula_white (x : Int) : colorDodgeFormula x 255 = 255 :=
  if_pos rfl

theorem colorDodgeFormula_of_ne_white (x : Int) {y : Int} (h : y ≠ 255) :
    colorDodgeFormula x y = min 255 (x * 256 / (255 - y)) :=
  if_neg h

/-- What ColorDodge leaves on the output is, in each channel, the mode's function of that channel of the operands. -/
theorem exec_colorDodge_channels (a b : Pixel) (coin : Coin) (s : State) :
    ∃ t, exec (.colorDodge a b coin) s = .next t ∧ ∀ c, chan t.blendOut c = channelFn 13 (chan a c) (chan b c) := by
  obtain ⟨-, delivers, -⟩ := ScreenMinMax.colorDodgeRule a b coin
  obtain ⟨t, answers, output, -⟩ := delivers s
  exact ⟨t, answers, fun c => output ▸ chan_blend (by decide) a b coin c⟩

/-- Settles O43: the guard of each channel decides which of the two facts about ColorDodge's function applies. -/
theorem noException : Obligations.NoException := by
  refine ⟨fun i s => ⟨_, exec_eq_evaluate i s⟩, fun s => next_or_refused (step s), fun _ _ => step_of_allDefined,
    colorDodgeFormula_white, fun x y _ _ unguarded => ⟨by omega, colorDodgeFormula_of_ne_white x unguarded⟩,
    fun a b coin s => ?colorDodge⟩
  obtain ⟨t, answers, channels⟩ := exec_colorDodge_channels a b coin s
  refine ⟨t, answers, fun c => ⟨fun white => ?guarded, fun unguarded => ?divided⟩⟩
  case guarded => rw [channels, white, channelFn_colorDodge_white]
  case divided =>
    rw [channels]
    exact ⟨one_le_inverse_of_ne_white unguarded, toNat_channelFn_colorDodge unguarded _⟩

end Sys2Proof.Proofs.Exceptions

/-! PROOFS. The statements of 70_reset_and_hazards.md: what a reset edge leaves in the pipeline and what is read after it,
and which steps are refused. -/

namespace Sys2Proof.Proofs.ResetAndHazards

open Sys2Proof.Machine Sys2Proof.Proofs.BlockState

/-! ## The reset edge (R111) -/

/-- A pipeline whose stages are all without a result shows `out_valid` = 0. -/
theorem outValid_of_invalid {s : State} (hs : s.stages ≠ []) (invalid : ∀ st ∈ s.stages, st.v = false) :
    s.outValid = some false := by
  obtain ⟨older, last, stages⟩ := (List.eq_nil_or_concat' s.stages).resolve_left hs
  rw [outValid_append stages, invalid last (by simp [stages])]

theorem map_result_of_invalid {stages : List Stage} (invalid : ∀ st ∈ stages, st.v = false) :
    stages.map Stage.result = List.replicate stages.length none := by
  rw [List.eq_replicate_iff]
  exact ⟨List.length_map _, List.forall_mem_map.2 fun st member => by simp [Stage.result, invalid st member]⟩

/-- In a window of `n` that holds `xs` and then nothing, the last place is the one `n - 1` places into `xs`. -/
theorem getLast?_take_append_replicate_none {α : Type} (xs : List (Option α)) {n : Nat} (positive : n ≠ 0) :
    ((xs ++ List.replicate n none).take n).getLast?.join = xs[n - 1]?.getD none := by
  rw [List.getLast?_take, if_neg positive]
  by_cases within : n - 1 < xs.length
  · simp [List.getElem?_append_left within, within]
  · have place : n - 1 - xs.length < n := by omega
    simp [List.getElem?_append_right (Nat.le_of_not_lt within), place, within]

/-- From stages without a result, a run of edges shows what the input L-1 edges before its last presented alone. -/
theorem output_of_run_from_invalid {s t : State} {ins : List (Option Pixel)} (hs : s.stages ≠ [])
    (invalid : ∀ st ∈ s.stages, st.v = false) (run : EdgeRun s ins t) :
    t.output = ins[s.stages.length - 1]?.getD none := by
  rw [output_eq_getLast, stagesHoldLatestInputs s ins t hs run, map_result_of_invalid invalid,
    getLast?_take_append_replicate_none ins (by simpa using hs)]

section ResetEdge
variable (s : State)

theorem length_stages_resetEdge : (resetEdge s).stages.length = s.stages.length :=
  length_clearStages _ _ _

theorem stages_resetEdge_ne_nil (hs : s.stages ≠ []) : (resetEdge s).stages ≠ [] := by
  rw [← List.length_pos_iff] at hs ⊢
  exact (length_stages_resetEdge s).symm ▸ hs

theorem v_of_mem_resetEdge : ∀ st ∈ (resetEdge s).stages, st.v = false :=
  fun _ => v_of_mem_clearStages

/-- The invariant is met by a reset edge itself, whatever held before: the harness awaits nothing, and no stage holds a
result. -/
theorem blockInv_resetEdge : BlockInv (resetEdge s) :=
  ⟨settle_eq_blended (s := s), (validCount_dropLast_of_invalid (v_of_mem_resetEdge s)).symm⟩

end ResetEdge

/-- Settles O34: the stages after the edge are as many as before, and none holds a result. -/
theorem resetEmptiesPipeline : Obligations.ResetEmptiesPipeline := by
  intro s p hs clock reset
  have answers := step_of_reset (drive_withLines s p) (eventOf_reset_edge hs clock reset)
  have stages := stages_resetEdge_ne_nil { s with ports := p } hs
  have invalid := v_of_mem_resetEdge { s with ports := p }
  refine ⟨_, answers, length_stages_resetEdge _, outValid_of_invalid stages invalid, rfl, blockInv_resetEdge _,
    fun ins u run => ?_⟩
  rw [output_of_run_from_invalid stages invalid run, length_stages_resetEdge]

/-! ## Which lines the block refuses (R112, D14) -/

/-- A one-bit port is undefined, low or high. -/
theorem line_cases (l : Lines 1) : l.undef ≠ 0#1 ∨ l = driven 0 ∨ l = driven 1 :=
  (em (l.undef = 0)).symm.imp id Exceptions.eq_driven_of_defined

@[simp] theorem driven_undef {w : Nat} (v : BitVec w) : (driven v).undef = 0 := rfl

@[simp] theorem driven_inj {w : Nat} {v v' : BitVec w} : driven v = driven v' ↔ v = v' := by
  simp [driven]

theorem ne_driven_of_undefined {w : Nat} {l : Lines w} (h : l.undef ≠ 0) (v : BitVec w) : l ≠ driven v := by
  rintro rfl
  exact h rfl

/-- Sampling an evaluation fails exactly where an operand bit is undefined. -/
theorem evaluationEvent_eq_undefined_iff {p : Ports} {r : Refusal} :
    evaluationEvent p = .undefined r ↔ r = .undefinedInput ∧ ¬ p.dataDefined := by
  by_cases defined : p.dataDefined
  · simp [evaluationEvent, sample_of_defined defined, defined]
  · simp [evaluationEvent, sample_of_undefined defined, defined, eq_comm (a := r)]

section Undefined
variable {s : State} (hs : s.stages ≠ [])
include hs

theorem eventOf_undefined_clock (clock : s.ports.clk.undef ≠ 0) : eventOf s = .undefined .undefinedControl := by
  simp [eventOf, hs, read_eq_none.2 clock]

theorem eventOf_undefined_reset (clock : s.ports.clk = driven 1) (reset : s.ports.rst.undef ≠ 0) :
    eventOf s = .undefined .undefinedControl := by
  simp [eventOf, hs, clock, read_eq_none.2 reset]

theorem eventOf_undefined_valid (clock : s.ports.clk = driven 1) (noReset : s.ports.rst = driven 0)
    (valid : s.ports.inValid.undef ≠ 0) : eventOf s = .undefined .undefinedControl := by
  simp [eventOf, hs, clock, noReset, read_eq_none.2 valid]

/-- What a pipeline refuses, the control lines being needed in the order `clk`, `rst`, `in_valid` and the operands last:
each is looked at only where those before it make an edge, no reset, an evaluation. -/
theorem eventOf_eq_undefined_iff {r : Refusal} :
    eventOf s = .undefined r ↔
      (r = .undefinedControl ∧ (s.ports.clk.undef ≠ 0 ∨
        s.ports.clk = driven 1 ∧ (s.ports.rst.undef ≠ 0 ∨ s.ports.rst = driven 0 ∧ s.ports.inValid.undef ≠ 0))) ∨
      (r = .undefinedInput ∧
        s.ports.clk = driven 1 ∧ s.ports.rst = driven 0 ∧ s.ports.inValid = driven 1 ∧ ¬ s.ports.dataDefined) := by
  obtain clock | stopped | clock := line_cases s.ports.clk
  · simp [eventOf_undefined_clock hs clock, clock, ne_driven_of_undefined clock, eq_comm (a := r)]
  · simp [eventOf_stopped hs stopped, stopped]
  obtain reset | noReset | reset := line_cases s.ports.rst
  · simp [eventOf_undefined_reset hs clock reset, clock, reset, ne_driven_of_undefined reset, eq_comm (a := r)]
  · obtain valid | invalid | valid := line_cases s.ports.inValid
    · simp [eventOf_undefined_valid hs clock noReset valid, clock, noReset, valid, ne_driven_of_undefined valid,
        eq_comm (a := r)]
    · simp [eventOf_empty_edge hs clock noReset invalid, clock, noReset, invalid]
    · simp [eventOf_presenting_edge hs clock noReset valid, evaluationEvent_eq_undefined_iff, clock, noReset, valid]
  · simp [eventOf_reset_edge hs clock reset, clock, reset]

end Undefined

/-! ## Which steps are refused (R47, D14) -/

section Refused
variable {s u : State} {r : Refusal}

/-- Where the caller's cue can be applied, the step is refused exactly where the block refuses the lines. -/
theorem step_eq_refused_iff_of_drive_ok (hd : drive s = .ok u) : step s = .refused r ↔ eventOf u = .undefined r := by
  cases event : eventOf u with
  | evaluation i => simp [step_of_evaluation hd event]
  | bubble => simp [step_of_bubble hd event]
  | reset => simp [step_of_reset hd event]
  | held => simp [step_of_held hd event]
  | undefined r' => simp [step, hd, event]

/-- Where it cannot, the step is refused for the cue's reason. -/
theorem step_of_drive_error (hd : drive s = .error r) : step s = .refused r := by
  simp [step, hd]

theorem drive_lines {p : Ports} {rest : List Cue} (hf : s.feed = .lines p :: rest) :
    drive s = .ok { s with ports := p, feed := rest } := by
  simp [drive, hf]

theorem drive_nothing (hf : s.feed = []) : drive s = .ok { s with ports := s.ports.idle } := by
  simp [drive, hf]

/-- In a pipeline the lines of a caller that presents nothing make a bubble. -/
theorem eventOf_held_lines (hs : s.stages ≠ []) : eventOf { s with ports := s.ports.idle } = .bubble :=
  eventOf_idle (p := s.ports) hs rfl

/-- An evaluation has no tuple exactly where it uses `@` and no result has been read. -/
theorem resolve_eq_none_iff {e : Evaluation} : resolve s e = none ↔ e.usesPrev = true ∧ s.prev = none := by
  constructor
  · intro unresolved
    by_contra known
    have hq : e.usesPrev = true → s.prev = some (s.prev.getD 0) := fun uses => by
      rw [Option.getD_of_ne_none fun nothing => known ⟨uses, nothing⟩]
    rw [Encoding.resolve_eq_presentedFields hq] at unresolved
    cases unresolved
  · rintro ⟨uses, nothing⟩
    obtain first | second := Encoding.usesPrev_eq_true.1 uses
    · simp [resolve, first, operandPixel, nothing]
    · simp [resolve, second, operandPixel, nothing]

/-- Where `@` is used and the harness need not wait, nothing is awaited or there is no stage. -/
theorem mustWait_eq_false_iff_of_usesPrev {e : Evaluation} (uses : e.usesPrev = true) :
    mustWait s e = false ↔ s.inFlight = 0 ∨ s.stages = [] := by
  rw [← Bool.not_eq_true, mustWait_eq_true]
  tauto

/-- Given lines with no stage: each step samples the operands. -/
theorem step_lines_refused_iff_of_no_stage {p : Ports} {rest : List Cue} (hs : s.stages = [])
    (hf : s.feed = .lines p :: rest) : step s = .refused r ↔ r = .undefinedInput ∧ ¬ p.dataDefined := by
  have sampled : eventOf { s with ports := p, feed := rest } = evaluationEvent p := eventOf_no_stage hs
  rw [step_eq_refused_iff_of_drive_ok (drive_lines hf), sampled, evaluationEvent_eq_undefined_iff]

/-- Given lines with stages: the block refuses them as `eventOf_eq_undefined_iff` says. -/
theorem step_lines_refused_iff_of_stages {p : Ports} {rest : List Cue} (hs : s.stages ≠ [])
    (hf : s.feed = .lines p :: rest) :
    step s = .refused r ↔
      (r = .undefinedControl ∧ (p.clk.undef ≠ 0 ∨
        p.clk = driven 1 ∧ (p.rst.undef ≠ 0 ∨ p.rst = driven 0 ∧ p.inValid.undef ≠ 0))) ∨
      (r = .undefinedInput ∧
        p.clk = driven 1 ∧ p.rst = driven 0 ∧ p.inValid = driven 1 ∧ ¬ p.dataDefined) :=
  (step_eq_refused_iff_of_drive_ok (drive_lines hf)).trans
    (eventOf_eq_undefined_iff (s := { s with ports := p, feed := rest }) hs)

/-- Presented evaluations: while the harness waits the idle lines make a bubble, and the lines of a resolved evaluation
are defined, so that only an `@` without a value is refused. -/
theorem step_present_refused_iff {e : Evaluation} {rest : List Cue} (hf : s.feed = .present e :: rest) :
    step s = .refused r ↔
      r = .noPreviousResult ∧ e.usesPrev = true ∧ s.prev = none ∧ (s.inFlight = 0 ∨ s.stages = []) := by
  cases wait : mustWait s e with
  | true =>
    obtain ⟨-, awaited, hs⟩ := mustWait_eq_true.1 wait
    rw [step_eq_refused_iff_of_drive_ok (Encoding.drive_waiting hf wait), eventOf_held_lines hs]
    simp [awaited, hs]
  | false =>
    cases tuple : resolve s e with
    | none =>
      obtain ⟨uses, nothing⟩ := resolve_eq_none_iff.1 tuple
      have ready := (mustWait_eq_false_iff_of_usesPrev uses).1 wait
      rw [step_of_drive_error (r := .noPreviousResult) (by simp [drive, hf, wait, tuple])]
      simp [uses, nothing, ready, eq_comm (a := r)]
    | some f =>
      have driveOk : drive s = .ok { s with ports := portsOf f, feed := rest } := by simp [drive, hf, wait, tuple]
      have known : ¬ (e.usesPrev = true ∧ s.prev = none) := by simp [← resolve_eq_none_iff, tuple]
      rw [step_eq_refused_iff_of_drive_ok driveOk, eventOf_portsOf (f := f) rfl]
      simp only [reduceCtorEq, false_iff]
      rintro ⟨-, uses, nothing, -⟩
      exact known ⟨uses, nothing⟩

/-- Nothing left: with no stage the held operands are sampled again, and with stages the idle lines make a bubble. -/
theorem step_nothing_refused_iff (hf : s.feed = []) :
    step s = .refused r ↔ r = .undefinedInput ∧ s.stages = [] ∧ ¬ s.ports.dataDefined := by
  rw [step_eq_refused_iff_of_drive_ok (drive_nothing hf)]
  by_cases hs : s.stages = []
  · have sampled : eventOf { s with ports := s.ports.idle } = evaluationEvent s.ports.idle := eventOf_no_stage hs
    have sameData : s.ports.idle.dataDefined ↔ s.ports.dataDefined := Iff.rfl
    rw [sampled, evaluationEvent_eq_undefined_iff, sameData]
    simp [hs]
  · rw [eventOf_held_lines hs]
    simp [hs]

end Refused

/-- Settles O44, by what the caller does next. -/
theorem refusesExactlyUndefinedInputs : Obligations.RefusesExactlyUndefinedInputs :=
  ⟨fun _ _ _ _ => step_lines_refused_iff_of_no_stage, fun _ _ _ _ => step_lines_refused_iff_of_stages,
    fun _ _ _ _ => step_present_refused_iff, fun _ _ => step_nothing_refused_iff⟩

end Sys2Proof.Proofs.ResetAndHazards
